-- ==== Sys2Proof/Word.lean ====
section
/-! DEFINITION. The word types of the machine, by the names the spec uses. -/

namespace Sys2Proof

/-- A byte of memory or of an instruction (R36: a byte is 8 bits). -/
abbrev Byte := BitVec 8

/-- A 64-bit quantity: a linear or physical address, a general register, the instruction pointer. -/
abbrev Word64 := BitVec 64

/-- One lane of a vector register: the 64 bits of a binary64 number (R80). -/
abbrev Lane := BitVec 64

/-- A vector register `ZMM[n]`: 512 bits (R13), held as its eight 64-bit lanes, lane 0 the least significant (R8). -/
abbrev Zmm := Vector Lane 8

/-- A vector register number (R62): five bits reach `ZMM0` to `ZMM31`. -/
abbrev VReg := BitVec 5

/-- A vector register number of a VEX form (R15, R62): four bits reach 0 to 15. -/
abbrev VexReg := BitVec 4

/-- A general register number (R24): `RAX` is 0, `RSP` 4, `RBP` 5, `R15` 15. -/
abbrev GReg := BitVec 4

/-- An opmask register number (R18): `k0` to `k7`. -/
abbrev KReg := BitVec 3

/-- The rounding control, two bits (R87). -/
abbrev RoundControl := BitVec 2

/-- The six status flags `MXCSR[5:0]` (R20): bit 0 `IE`, 1 `DE`, 2 `ZE`, 3 `OE`, 4 `UE`, 5 `PE`. -/
abbrev FpFlags := BitVec 6

end Sys2Proof
end

