-- ==== Sys2Proof/Config.lean ====
section
/-! DEFINITION. What an implementation fixes: the parameters of R6 and of `92_eei_decisions.md`, each with the
default the spec gives it, as plain data that `State` holds and no step writes. And the one free value. -/

namespace Sys2Proof

/-- `MODE` of R6 (D18): 64-bit mode, or 32-bit protected or compatibility mode. -/
inductive Mode where
  | mode64
  | mode32
  deriving DecidableEq, Repr

/-- How instruction bytes are read (R67, R69, R142): `legacy` is real-address or virtual-8086 mode, where every VEX
and EVEX encoding is an undefined opcode. -/
inductive DecodeMode where
  | mode64
  | mode32
  | legacy
  deriving DecidableEq, Repr

/-- `B1_REG_NON512` (D4, C4): what a register form with `EVEX.b = 1` and `L'L` not `10` is. -/
inductive B1RegNon512 where
  /-- `L'L` is `EVEX.RC` and the form is the 512-bit one (R64, the default). -/
  | as512
  /-- The source's pseudocode read literally: a 128- or 256-bit form under `MXCSR.RC` for `L'L` of `00` or `01`. -/
  | literal
  deriving DecidableEq, Repr

/-- `UNMASKED_FLAG_POLICY` (D20, U7): which MXCSR flags an instruction leaves when it faults with #XM. -/
inductive UnmaskedFlagPolicy where
  /-- R136, the default. -/
  | twoPhase
  /-- Any flags between the old ones and the old ones OR all those raised: a free value within that bound. -/
  | anySubset
  deriving DecidableEq, Repr

/-- `KWIDTH` (D5): the width of an opmask register. It cannot change a result; only `Safety` reads it. -/
inductive KWidth where
  | w16
  | w64
  deriving DecidableEq, Repr

/-- What the `AddressMap` parameter (R42, D9) says an address holds. -/
inductive RegionKind where
  /-- Readable ordinary memory. -/
  | ordinary
  /-- A device region, whose reads may have side effects (R41): the model refuses to read it. -/
  | device
  /-- No memory at all: the model faults. -/
  | unmapped
  deriving DecidableEq, Repr

/-- One row of the `AddressMap` parameter: physical addresses `base .. base+size-1`. -/
structure Region where
  base : Nat
  size : Nat
  kind : RegionKind
  deriving DecidableEq, Repr

/-- The exceptions of R138 and R157. -/
inductive Exc where
  /-- Debug, vector 1 (R157). -/
  | db
  /-- Invalid opcode, vector 6. -/
  | ud
  /-- Device not available, vector 7. -/
  | nm
  /-- Stack-segment fault, vector 12, error code 0. -/
  | ss
  /-- General protection, vector 13, error code 0. -/
  | gp
  /-- Page fault, vector 14, with its error code. -/
  | pf (code : BitVec 32)
  /-- Alignment check, vector 17, error code 0. -/
  | ac
  /-- SIMD floating-point exception, vector 19. -/
  | xm
  deriving DecidableEq, Repr

/-- The kinds of access `Translate` is asked about (R43). -/
inductive Access where
  | read
  | fetch
  deriving DecidableEq, Repr

/-- What `Translate` answers (R43): a physical address, or `fault(vector, error code, faulting address)`, the vector with
its error code being one of R138. -/
inductive Translated where
  | physical (pa : Word64)
  | fault (e : Exc) (address : Word64)
  deriving DecidableEq, Repr

/-- An answer of `Translate` given outright, for one access at one `CPL` to the linear addresses from `first` on, `size`
of them: the answer to `first`, and for a physical address the ones that follow it. So any function of R43 can be said,
whatever paging structures lie behind it. -/
structure TranslateRow where
  first : Word64
  size : Nat
  access : Access
  cpl : BitVec 2
  answer : Translated
  deriving DecidableEq, Repr

/-- What `Translate` (R43, D9) knows of one 4-KByte linear page: the facts that R143 (c) and the error code of R138
speak of. The page-table formats behind them are outside the spec. -/
structure Page where
  /-- The physical page number. -/
  frame : BitVec 52
  present : Bool
  /-- A reserved bit is set in a paging entry. -/
  reserved : Bool
  /-- User (`CPL = 3`) accesses are allowed. -/
  user : Bool
  /-- Instruction fetch is denied (execute-disable). -/
  noExec : Bool
  /-- A data access is denied by a protection key. -/
  keyDenied : Bool
  /-- The access is denied by enclave access control (bit 15 of the error code, U14). -/
  sgxDenied : Bool
  deriving DecidableEq, Repr

/-- A page no row of `Translate` lists. -/
inductive UnlistedPage where
  /-- Identity-mapped and accessible to every access (the default of `92_eei_decisions.md`). -/
  | identity
  /-- Not present. -/
  | absent
  deriving DecidableEq, Repr

/-- The `Translate` parameter (R43, D9) as plain data: the first row that covers an access answers it, else the page its
linear page number is listed with, else the rule for the rest. -/
structure Translation where
  rows : List TranslateRow
  pages : List (BitVec 52 × Page)
  unlisted : UnlistedPage
  deriving DecidableEq, Repr

/-- The parameters of the hardware and of the spec's open points (R6; `92_eei_decisions.md`, last table), constant
during a run (D25). `NAN_RULE` has one value, `role_order`, and is not a field. -/
structure Config where
  /-- `HAS_FMA`: `CPUID.01H:ECX[12]` (R29). -/
  hasFMA : Bool
  /-- `HAS_AVX512F`: `CPUID.(EAX=07H,ECX=0):EBX[16]` (R29). -/
  hasAVX512F : Bool
  /-- `HAS_AVX512VL`: `CPUID.(EAX=07H,ECX=0):EBX[31]` (R29). -/
  hasAVX512VL : Bool
  kwidth : KWidth
  /-- `FAULT_SUPPRESSION` (D21, R49). -/
  faultSuppression : Bool
  /-- `UNMASKED_FLAG_POLICY` (D20, R136). -/
  flagPolicy : UnmaskedFlagPolicy
  /-- `SAE_UPDATES_FLAGS` (D14, R137). -/
  saeUpdatesFlags : Bool
  /-- `INFZERO_QNAN_IE` (D13, R94). -/
  infZeroQnanIE : Bool
  /-- `B1_REG_NON512` (D4, R64). -/
  b1RegNon512 : B1RegNon512
  /-- `AC_ON_FULL_VECTOR` (U6, R145). -/
  acOnFullVector : Bool
  /-- `AddressMap` (D9): the first row that holds an address decides; an address in no row is ordinary memory. -/
  addressMap : List Region
  /-- `Translate` (D9). -/
  translation : Translation
  deriving DecidableEq, Repr

namespace Config

/-- Every parameter at the default the spec gives it; the local APIC's default page is a device region (R155). -/
def default : Config where
  hasFMA := true
  hasAVX512F := true
  hasAVX512VL := true
  kwidth := .w64
  faultSuppression := true
  flagPolicy := .twoPhase
  saeUpdatesFlags := false
  infZeroQnanIE := false
  b1RegNon512 := .as512
  acOnFullVector := false
  addressMap := [{ base := 0xFEE00000, size := 0x1000, kind := .device }]
  translation := { rows := [], pages := [], unlisted := .identity }

/-- The free value of U7: which of the raised flags a fault leaves under `anySubset`, one choice per fault. -/
opaque freeFaultFlags : Nat → FpFlags

end Config
end Sys2Proof
end

