-- ==== Sys2Proof/Syntax.lean ====
section
/-! DEFINITION. The instructions: one constructor per row T1 to T15 of `spec/opcode_table.json`, with everything an
encoding carries (prefixes, register numbers, addressing form, displacement, writemask, embedded rounding). -/

namespace Sys2Proof

/-- The six segment registers, numbered 0 to 5 (R25). -/
inductive Seg where
  | es
  | cs
  | ss
  | ds
  | fs
  | gs
  deriving DecidableEq, Repr

/-- The legacy prefixes that may stand before a VEX or EVEX prefix (R51, R68). -/
inductive LegacyPrefix where
  /-- A segment override: `26H 2EH 36H 3EH 64H 65H`. -/
  | seg (s : Seg)
  /-- The address-size prefix `67H`. -/
  | addressSize
  deriving DecidableEq, Repr

/-- The displacement of a form with a base register (R60). A `disp8` is held as it is encoded, before the scaling of
R61. -/
inductive Disp where
  | none
  | d8 (v : BitVec 8)
  | d32 (v : BitVec 32)
  deriving DecidableEq, Repr

/-- The addressing forms of R124. -/
inductive MemOperand where
  /-- No SIB byte: `mod` 00, 01 or 10 with a base register. -/
  | base (b : GReg) (disp : Disp)
  /-- A SIB byte with a base register; `scale` is SIB bits 7:6, no index is `X:index = 0100`. -/
  | sib (b : GReg) (index : Option GReg) (scale : BitVec 2) (disp : Disp)
  /-- A SIB byte with `base = 101` and `mod = 00`: no base register. -/
  | sibNoBase (index : Option GReg) (scale : BitVec 2) (disp : BitVec 32)
  /-- `mod = 00`, `rm = 101`: RIP-relative in `Mode64`, an absolute address in `Mode32`. -/
  | ripRel (disp : BitVec 32)
  deriving DecidableEq, Repr

/-- The third operand of a VEX form (R92). -/
inductive VexSrc3 where
  | reg (r : VexReg)
  | mem (m : MemOperand)
  deriving DecidableEq, Repr

/-- The third operand of an EVEX form with `EVEX.b` (R64, R92). -/
inductive EvexSrc3 where
  /-- A register, `b = 0`. -/
  | reg (r : VReg)
  /-- A register, `b = 1`: in a 512-bit form the embedded rounding control `rc = P2[6:5]`. In a 128- or 256-bit form
  only under `B1_REG_NON512 = literal`, with `rc` the `L'L` bits. -/
  | regB (r : VReg) (rc : RoundControl)
  /-- A full-vector memory operand, `b = 0`. -/
  | mem (m : MemOperand)
  /-- The broadcast operand `m64bcst`, `b = 1`. -/
  | bcst (m : MemOperand)
  deriving DecidableEq, Repr

/-- The writemask and zeroing fields `aaa` and `z` of an EVEX prefix (R63). -/
structure MaskSpec where
  aaa : KReg
  z : Bool
  deriving DecidableEq, Repr

/-- The 15 forms. `dest` is `DEST`, `src2` is `SRC2`, `src3` is `SRC3` (R10). -/
inductive Instr where
  /-- T1, R105. -/
  | vfmsubadd132pdXmmVex (pfx : List LegacyPrefix) (dest src2 : VexReg) (src3 : VexSrc3)
  /-- T2, R106. -/
  | vfmsubadd213pdXmmVex (pfx : List LegacyPrefix) (dest src2 : VexReg) (src3 : VexSrc3)
  /-- T3, R107. -/
  | vfmsubadd231pdXmmVex (pfx : List LegacyPrefix) (dest src2 : VexReg) (src3 : VexSrc3)
  /-- T4, R108. -/
  | vfmsubadd132pdYmmVex (pfx : List LegacyPrefix) (dest src2 : VexReg) (src3 : VexSrc3)
  /-- T5, R109. -/
  | vfmsubadd213pdYmmVex (pfx : List LegacyPrefix) (dest src2 : VexReg) (src3 : VexSrc3)
  /-- T6, R110. -/
  | vfmsubadd231pdYmmVex (pfx : List LegacyPrefix) (dest src2 : VexReg) (src3 : VexSrc3)
  /-- T7, R111. -/
  | vfmsubadd132pdXmmEvex (pfx : List LegacyPrefix) (mask : MaskSpec) (dest src2 : VReg) (src3 : EvexSrc3)
  /-- T8, R112. -/
  | vfmsubadd213pdXmmEvex (pfx : List LegacyPrefix) (mask : MaskSpec) (dest src2 : VReg) (src3 : EvexSrc3)
  /-- T9, R113. -/
  | vfmsubadd231pdXmmEvex (pfx : List LegacyPrefix) (mask : MaskSpec) (dest src2 : VReg) (src3 : EvexSrc3)
  /-- T10, R114. -/
  | vfmsubadd132pdYmmEvex (pfx : List LegacyPrefix) (mask : MaskSpec) (dest src2 : VReg) (src3 : EvexSrc3)
  /-- T11, R115. -/
  | vfmsubadd213pdYmmEvex (pfx : List LegacyPrefix) (mask : MaskSpec) (dest src2 : VReg) (src3 : EvexSrc3)
  /-- T12, R116. -/
  | vfmsubadd231pdYmmEvex (pfx : List LegacyPrefix) (mask : MaskSpec) (dest src2 : VReg) (src3 : EvexSrc3)
  /-- T13, R117. -/
  | vfmsubadd132pdZmmEvex (pfx : List LegacyPrefix) (mask : MaskSpec) (dest src2 : VReg) (src3 : EvexSrc3)
  /-- T14, R118. -/
  | vfmsubadd213pdZmmEvex (pfx : List LegacyPrefix) (mask : MaskSpec) (dest src2 : VReg) (src3 : EvexSrc3)
  /-- T15, R119. -/
  | vfmsubadd231pdZmmEvex (pfx : List LegacyPrefix) (mask : MaskSpec) (dest src2 : VReg) (src3 : EvexSrc3)
  deriving DecidableEq, Repr

/-- The operand order the mnemonic's digits name (R82). -/
inductive Form where
  | f132
  | f213
  | f231
  deriving DecidableEq, Repr

/-- The vector length `VL` (R6). -/
inductive VecLen where
  | v128
  | v256
  | v512
  deriving DecidableEq, Repr

/-- The third operand of any form (R92). -/
inductive Src3 where
  | reg (r : VReg)
  | regB (r : VReg) (rc : RoundControl)
  | mem (m : MemOperand)
  | bcst (m : MemOperand)
  deriving DecidableEq, Repr

/-- The parameters of `EXEC(form, VL, enc)` (R104) and the operands of one instruction; `mask` is `none` under VEX. -/
structure FormOp where
  form : Form
  vl : VecLen
  pfx : List LegacyPrefix
  mask : Option MaskSpec
  dest : VReg
  src2 : VReg
  src3 : Src3
  deriving DecidableEq, Repr

end Sys2Proof
end

