-- ==== Sys2Proof/WellFormed.lean ====
section
/-! DEFINITION. Which instructions an encoding exists for, under a decoding mode and the parameter `B1_REG_NON512`. -/

namespace Sys2Proof

/-- A base register and displacement that need no SIB byte (R58 to R60): `rm = 100` announces a SIB byte, and
`rm = 101` with `mod = 00` is not a base register. -/
def wfBase (b : GReg) (disp : Disp) : Bool :=
  b.extractLsb' 0 3 != 0b100#3 && (disp != .none || b.extractLsb' 0 3 != 0b101#3)

/-- A base register in a SIB byte: `base = 101` with `mod = 00` is not a base register (R59). -/
def wfSibBase (b : GReg) (disp : Disp) : Bool :=
  disp != .none || b.extractLsb' 0 3 != 0b101#3

/-- Register 4 cannot be an index (R59, R124). -/
def wfIndex (i : Option GReg) : Bool := i != some 4#4

def MemOperand.wf : MemOperand → Bool
  | .base b d => wfBase b d
  | .sib b i _ d => wfSibBase b d && wfIndex i
  | .sibNoBase i _ _ => wfIndex i
  | .ripRel _ => true

/-- In `Mode32` only general registers 0 to 7 exist (R24). -/
def MemOperand.low : MemOperand → Bool
  | .base b _ => b < 8#4
  | .sib b i _ _ => b < 8#4 && i.all (· < 8#4)
  | .sibNoBase i _ _ => i.all (· < 8#4)
  | .ripRel _ => true

/-- `z = 1` needs a writemask (R63, R71 (c)). -/
def MaskSpec.wf (m : MaskSpec) : Bool := !m.z || m.aaa != 0#3

/-- Where a register third operand with `EVEX.b = 1` is encodable (R64; D4 for `literal`). -/
def wfRegB (p : B1RegNon512) (vl : VecLen) (rc : RoundControl) : Bool :=
  match p, vl with
  | .as512, .v512 => true
  | .as512, _ => false
  | .literal, .v128 => rc == 0b00#2
  | .literal, .v256 => rc == 0b01#2
  | .literal, .v512 => rc == 0b10#2 || rc == 0b11#2

/-- Bytes of a displacement (R60). -/
def Disp.size : Disp → Nat
  | .none => 0
  | .d8 _ => 1
  | .d32 _ => 4

/-- Bytes of the SIB byte and the displacement, `S + D` of R52. -/
def MemOperand.size : MemOperand → Nat
  | .base _ d => d.size
  | .sib _ _ _ d => 1 + d.size
  | .sibNoBase _ _ _ => 5
  | .ripRel _ => 4

def VexSrc3.size : VexSrc3 → Nat
  | .reg _ => 0
  | .mem m => m.size

def EvexSrc3.size : EvexSrc3 → Nat
  | .reg _ => 0
  | .regB _ _ => 0
  | .mem m => m.size
  | .bcst m => m.size

/-- What `Mode32` asks of a memory operand: low registers, and no `67H` (R69, R127). `legacy` decodes nothing. -/
def wfModeMem (m : DecodeMode) (pfx : List LegacyPrefix) (op : MemOperand) : Bool :=
  match m with
  | .mode64 => true
  | .mode32 => op.low && !pfx.contains .addressSize
  | .legacy => false

/-- What the mode asks of a register number (R15). -/
def wfModeReg (m : DecodeMode) (r : VReg) : Bool :=
  match m with
  | .mode64 => true
  | .mode32 => r < 8#5
  | .legacy => false

/-- A VEX form is at most 15 bytes long (R52) and its operands are encodable in the mode. -/
def wfVex (m : DecodeMode) (pfx : List LegacyPrefix) (dest src2 : VexReg) (src3 : VexSrc3) : Bool :=
  wfModeReg m (dest.setWidth 5) && wfModeReg m (src2.setWidth 5) && pfx.length + 5 + src3.size ≤ 15 &&
  match src3 with
  | .reg r => wfModeReg m (r.setWidth 5)
  | .mem op => op.wf && wfModeMem m pfx op

/-- An EVEX form is at most 15 bytes long (R52) and its operands and decorations are encodable in the mode. -/
def wfEvex (m : DecodeMode) (p : B1RegNon512) (vl : VecLen) (pfx : List LegacyPrefix) (mask : MaskSpec)
    (dest src2 : VReg) (src3 : EvexSrc3) : Bool :=
  wfModeReg m dest && wfModeReg m src2 && mask.wf && pfx.length + 6 + src3.size ≤ 15 &&
  match src3 with
  | .reg r => wfModeReg m r
  | .regB r rc => wfModeReg m r && wfRegB p vl rc
  | .mem op => op.wf && wfModeMem m pfx op
  | .bcst op => op.wf && wfModeMem m pfx op

/-- The instructions that have an encoding in mode `m` under policy `p`. -/
def Instr.wf (m : DecodeMode) (p : B1RegNon512) : Instr → Bool
  | .vfmsubadd132pdXmmVex x d v r => wfVex m x d v r
  | .vfmsubadd213pdXmmVex x d v r => wfVex m x d v r
  | .vfmsubadd231pdXmmVex x d v r => wfVex m x d v r
  | .vfmsubadd132pdYmmVex x d v r => wfVex m x d v r
  | .vfmsubadd213pdYmmVex x d v r => wfVex m x d v r
  | .vfmsubadd231pdYmmVex x d v r => wfVex m x d v r
  | .vfmsubadd132pdXmmEvex x k d v r => wfEvex m p .v128 x k d v r
  | .vfmsubadd213pdXmmEvex x k d v r => wfEvex m p .v128 x k d v r
  | .vfmsubadd231pdXmmEvex x k d v r => wfEvex m p .v128 x k d v r
  | .vfmsubadd132pdYmmEvex x k d v r => wfEvex m p .v256 x k d v r
  | .vfmsubadd213pdYmmEvex x k d v r => wfEvex m p .v256 x k d v r
  | .vfmsubadd231pdYmmEvex x k d v r => wfEvex m p .v256 x k d v r
  | .vfmsubadd132pdZmmEvex x k d v r => wfEvex m p .v512 x k d v r
  | .vfmsubadd213pdZmmEvex x k d v r => wfEvex m p .v512 x k d v r
  | .vfmsubadd231pdZmmEvex x k d v r => wfEvex m p .v512 x k d v r

end Sys2Proof
end

