-- ==== Sys2Proof/Decode.lean ====
section
/-! DEFINITION. Instruction bytes to instructions (R51 to R71), and back. The decoder is total: it answers an
instruction with the bytes after it, or says by name why there is none. -/

namespace Sys2Proof

/-- What the decoder answers. -/
inductive Decoded where
  /-- One of the 15 forms, and the bytes after it. -/
  | instr (i : Instr) (rest : List Byte)
  /-- An encoding that raises #UD whatever the machine's state (R68, R71; R142 in `legacy` mode). -/
  | undefined
  /-- The bytes end inside the instruction. -/
  | truncated
  /-- Not one of the 15 forms (R70). -/
  | notInSpec
  /-- `Mode32`: an EVEX encoding whose `R'`, `V'` or `vvvv[3]` asks for a register above 7 (R69). -/
  | mode32Register
  /-- `Mode32`: a memory operand under `67H`, 16-bit addressing (R127). -/
  | addressing16
  deriving DecidableEq, Repr

/-! ## Prefixes (R51, R67 (1), R68) -/

/-- The prefixes allowed in front, by their bytes. -/
def legacyPrefix? (b : Byte) : Option LegacyPrefix :=
  if b = 0x26#8 then some (.seg .es)
  else if b = 0x2E#8 then some (.seg .cs)
  else if b = 0x36#8 then some (.seg .ss)
  else if b = 0x3E#8 then some (.seg .ds)
  else if b = 0x64#8 then some (.seg .fs)
  else if b = 0x65#8 then some (.seg .gs)
  else if b = 0x67#8 then some .addressSize
  else none

/-- `LOCK`, `66H`, `F2H`, `F3H`, and in `Mode64` a REX byte: each makes an encoding that `C4H` or `62H` opens after it #UD
(R68, R142). In front of `C5H` it has no effect: DESIGN CHOICE (log entry 45). -/
def forbiddenPrefix (m : DecodeMode) (b : Byte) : Bool :=
  b = 0xF0#8 || b = 0x66#8 || b = 0xF2#8 || b = 0xF3#8 || (m = .mode64 && b.extractLsb' 4 4 = 0x4#4)

/-- A byte that the decoder skips in front of `C4H`, `C5H` or `62H`. -/
def isPrefix (m : DecodeMode) (b : Byte) : Bool := (legacyPrefix? b).isSome || forbiddenPrefix m b

/-- Skip the prefixes: the allowed ones in order, whether a forbidden one was among them, and the bytes that follow. -/
def splitPrefixes (m : DecodeMode) : List Byte → List LegacyPrefix × Bool × List Byte
  | [] => ([], false, [])
  | b :: bs =>
    match legacyPrefix? b with
    | some p => (p :: (splitPrefixes m bs).1, (splitPrefixes m bs).2.1, (splitPrefixes m bs).2.2)
    | none =>
      if forbiddenPrefix m b then ((splitPrefixes m bs).1, true, (splitPrefixes m bs).2.2)
      else ([], false, b :: bs)

/-! ## ModRM, SIB, displacement (R58 to R60) -/

/-- A little-endian 32-bit displacement (R60). -/
def disp32? : List Byte → Option (BitVec 32 × List Byte)
  | b0 :: b1 :: b2 :: b3 :: bs => some (b3 ++ b2 ++ b1 ++ b0, bs)
  | _ => none

/-- The displacement of a form with a base register, by `mod` (00, 01 or 10). -/
def disp? (md : BitVec 2) (bs : List Byte) : Option (Disp × List Byte) :=
  if md = 0b00#2 then some (.none, bs)
  else if md = 0b01#2 then
    match bs with
    | b :: bs' => some (.d8 b, bs')
    | [] => none
  else (disp32? bs).map fun (d, bs') => (.d32 d, bs')

/-- What `ModRM.mod` and `ModRM.rm` name: a register by its three `rm` bits, or a memory operand. -/
inductive RmField where
  | reg (rm : BitVec 3)
  | mem (m : MemOperand)
  deriving DecidableEq, Repr

/-- The operand after a SIB byte (R59). `x` and `b` are the extension bits `X` and `B`. -/
def sibOperand? (x b : BitVec 1) (md : BitVec 2) (sib : Byte) (bs : List Byte) : Option (MemOperand × List Byte) :=
  let scale := sib.extractLsb' 6 2
  let idx : GReg := x ++ sib.extractLsb' 3 3
  let index := if idx = 4#4 then none else some idx
  let base := sib.extractLsb' 0 3
  if base = 0b101#3 ∧ md = 0b00#2 then
    (disp32? bs).map fun (d, bs') => (.sibNoBase index scale d, bs')
  else (disp? md bs).map fun (d, bs') => (.sib (b ++ base) index scale d, bs')

/-- The third operand's place and form (R58 to R60); `none` when the bytes run out. -/
def rmField? (x b : BitVec 1) (modrm : Byte) (bs : List Byte) : Option (RmField × List Byte) :=
  let md := modrm.extractLsb' 6 2
  let rm := modrm.extractLsb' 0 3
  if md = 0b11#2 then some (.reg rm, bs)
  else if rm = 0b100#3 then
    match bs with
    | sib :: bs' => (sibOperand? x b md sib bs').map fun (m, r) => (.mem m, r)
    | [] => none
  else if md = 0b00#2 ∧ rm = 0b101#3 then (disp32? bs).map fun (d, r) => (.mem (.ripRel d), r)
  else (disp? md bs).map fun (d, r) => (.mem (.base (b ++ rm) d), r)

/-! ## The opcode byte and the 15 rows (R54, R57, R65) -/

/-- The opcode byte fixes the operand order (R65). -/
def form? (op : Byte) : Option Form :=
  if op = 0x97#8 then some .f132
  else if op = 0xA7#8 then some .f213
  else if op = 0xB7#8 then some .f231
  else none

def Form.opcode : Form → Byte
  | .f132 => 0x97#8
  | .f213 => 0xA7#8
  | .f231 => 0xB7#8

/-- The row of a VEX encoding, by opcode and `L` (R54). -/
def vexInstr (f : Form) (l : BitVec 1) (pfx : List LegacyPrefix) (d v : VexReg) (r : VexSrc3) : Instr :=
  if l = 0#1 then
    match f with
    | .f132 => .vfmsubadd132pdXmmVex pfx d v r
    | .f213 => .vfmsubadd213pdXmmVex pfx d v r
    | .f231 => .vfmsubadd231pdXmmVex pfx d v r
  else
    match f with
    | .f132 => .vfmsubadd132pdYmmVex pfx d v r
    | .f213 => .vfmsubadd213pdYmmVex pfx d v r
    | .f231 => .vfmsubadd231pdYmmVex pfx d v r

/-- The row of an EVEX encoding, by opcode and vector length (R57). -/
def evexInstr (f : Form) (vl : VecLen) (pfx : List LegacyPrefix) (k : MaskSpec) (d v : VReg) (r : EvexSrc3) : Instr :=
  match f, vl with
  | .f132, .v128 => .vfmsubadd132pdXmmEvex pfx k d v r
  | .f213, .v128 => .vfmsubadd213pdXmmEvex pfx k d v r
  | .f231, .v128 => .vfmsubadd231pdXmmEvex pfx k d v r
  | .f132, .v256 => .vfmsubadd132pdYmmEvex pfx k d v r
  | .f213, .v256 => .vfmsubadd213pdYmmEvex pfx k d v r
  | .f231, .v256 => .vfmsubadd231pdYmmEvex pfx k d v r
  | .f132, .v512 => .vfmsubadd132pdZmmEvex pfx k d v r
  | .f213, .v512 => .vfmsubadd213pdZmmEvex pfx k d v r
  | .f231, .v512 => .vfmsubadd231pdZmmEvex pfx k d v r

/-- The vector length `L'L` selects where it is a length; `11` is reserved (R56). -/
def vecLen? (ll : BitVec 2) : Option VecLen :=
  if ll = 0b00#2 then some .v128
  else if ll = 0b01#2 then some .v256
  else if ll = 0b10#2 then some .v512
  else none

/-- The vector length of a register form with `EVEX.b = 1` (R64; D4): 512 under `as512`, whatever `L'L` holds; under
`literal` `L'L` of `00` and `01` stay lengths. -/
def regBLen (p : B1RegNon512) (ll : BitVec 2) : VecLen :=
  match p with
  | .as512 => .v512
  | .literal => if ll = 0b00#2 then .v128 else if ll = 0b01#2 then .v256 else .v512

/-- In `Mode32` the extension bit `B` is ignored (R69). -/
def extB (m : DecodeMode) (b : BitVec 1) : BitVec 1 := if m = .mode32 then 0#1 else b

/-- `Mode32`, a memory operand under `67H`: 16-bit addressing, whose ModRM table the spec does not give (R127), so nothing
after the ModRM byte is read. -/
def addressing16? (m : DecodeMode) (pfx : List LegacyPrefix) (modrm : Byte) : Bool :=
  m = .mode32 && pfx.contains .addressSize && modrm.extractLsb' 6 2 != 0b11#2

/-- The operand part of a VEX form, its fixed fields having matched. `b1` and `b2` are the payload bytes of R53, and
`bad` says that the form is undefined: a forbidden prefix stood in front, or the mode is `legacy`. The whole form is read
first, so that a fetch fault or a sixteenth byte comes before the #UD (R147). -/
def decodeVexOperands (m : DecodeMode) (pfx : List LegacyPrefix) (bad : Bool) (f : Form) (b1 b2 : Byte)
    (bs : List Byte) : Decoded :=
  match bs with
  | [] => .truncated
  | modrm :: bs' =>
    let b := extB m (~~~ b1.extractLsb' 5 1)
    if addressing16? m pfx modrm then (if bad then .undefined else .addressing16)
    else match rmField? (~~~ b1.extractLsb' 6 1) b modrm bs' with
    | none => .truncated
    | some (rm, rest) =>
      let dest : VexReg := ~~~ b1.extractLsb' 7 1 ++ modrm.extractLsb' 3 3
      let vvvv : VexReg := ~~~ b2.extractLsb' 3 4
      let src2 : VexReg := if m = .mode32 then vvvv &&& 7#4 else vvvv
      let l := b2.extractLsb' 2 1
      if bad then .undefined
      else match rm with
        | .reg r => .instr (vexInstr f l pfx dest src2 (.reg (b ++ r))) rest
        | .mem o => .instr (vexInstr f l pfx dest src2 (.mem o)) rest

/-- After the byte `C4H` (R53, R54, R67 (2) and (3)). Outside 64-bit mode a next byte whose bits 7:6 are not `11`
makes it `LES`. In `legacy` mode every VEX encoding is an undefined opcode (R26, R142, R160).
DESIGN CHOICE (log entry 47): the opcode byte is asked for before the payload's fixed fields are judged, so a fetch fault on it
comes before the refusal. -/
def decodeVex (m : DecodeMode) (pfx : List LegacyPrefix) (bad : Bool) (bs : List Byte) : Decoded :=
  match bs with
  | [] => .truncated
  | b1 :: bs1 =>
    if m ≠ .mode64 ∧ b1.extractLsb' 6 2 ≠ 0b11#2 then .notInSpec
    else match bs1 with
      | b2 :: op :: bs3 =>
        let bad' := bad || m == .legacy
        match form? op with
        | some f =>
          if b1.extractLsb' 0 5 = 0b00010#5 ∧ b2.extractLsb' 7 1 = 1#1 ∧ b2.extractLsb' 0 2 = 0b01#2 then
            decodeVexOperands m pfx bad' f b1 b2 bs3
          else if bad' then .undefined else .notInSpec
        | none => if bad' then .undefined else .notInSpec
      | _ => .truncated

/-- The register an EVEX field names in `Mode32`: a request for a register above 7 is refused (R69). -/
def mode32Refused (m : DecodeMode) (p0 p1 p2 : Byte) : Bool :=
  m = .mode32 && !(p0.extractLsb' 4 1 = 1#1 && p1.extractLsb' 6 1 = 1#1 && p2.extractLsb' 3 1 = 1#1)

/-- The operand part of an EVEX form, its fixed fields having matched. `p0`, `p1`, `p2` are the payload bytes of R56;
`bad` says that the form is undefined: a forbidden prefix in front, a reserved field of R71 (a) or (b) set wrongly, or
`legacy` mode. DESIGN CHOICE (log entry 26): a refusal of `Mode32` comes after these encoding conditions and before the
conditions of R142 on the machine's state and #NM. -/
def decodeEvexOperands (m : DecodeMode) (pol : B1RegNon512) (pfx : List LegacyPrefix) (bad : Bool) (f : Form)
    (p0 p1 p2 : Byte) (bs : List Byte) : Decoded :=
  match bs with
  | [] => .truncated
  | modrm :: bs' =>
    let x := ~~~ p0.extractLsb' 6 1
    let b := extB m (~~~ p0.extractLsb' 5 1)
    let k : MaskSpec := { aaa := p2.extractLsb' 0 3, z := p2.extractLsb' 7 1 = 1#1 }
    let ll := p2.extractLsb' 5 2
    if addressing16? m pfx modrm then
      if bad ∨ k.wf = false ∨ vecLen? ll = none then .undefined
      else if mode32Refused m p0 p1 p2 then .mode32Register
      else .addressing16
    else match rmField? x b modrm bs' with
    | none => .truncated
    | some (rm, rest) =>
      let dest : VReg := ~~~ p0.extractLsb' 4 1 ++ ~~~ p0.extractLsb' 7 1 ++ modrm.extractLsb' 3 3
      let src2 : VReg := ~~~ p2.extractLsb' 3 1 ++ ~~~ p1.extractLsb' 3 4
      let eb := p2.extractLsb' 4 1 = 1#1
      if bad ∨ k.wf = false then .undefined
      else match rm with
        | .reg r =>
          if eb then
            if mode32Refused m p0 p1 p2 then .mode32Register
            else .instr (evexInstr f (regBLen pol ll) pfx k dest src2 (.regB (x ++ b ++ r) ll)) rest
          else match vecLen? ll with
            | none => .undefined
            | some vl =>
              if mode32Refused m p0 p1 p2 then .mode32Register
              else .instr (evexInstr f vl pfx k dest src2 (.reg (x ++ b ++ r))) rest
        | .mem o =>
          match vecLen? ll with
          | none => .undefined
          | some vl =>
            if mode32Refused m p0 p1 p2 then .mode32Register
            else .instr (evexInstr f vl pfx k dest src2 (if eb then .bcst o else .mem o)) rest

/-- After the byte `62H` (R56, R57, R67 (2) and (3)). Outside 64-bit mode a next byte whose bits 7:6 are not `11`
makes it `BOUND`. R71 (a) and (b) are applied before the report "not in this spec" (R66). In `legacy` mode every EVEX
encoding is an undefined opcode (R26, R142, R160).
DESIGN CHOICE (log entry 47): as for VEX, the opcode byte is asked for before the payload's fixed fields are judged. -/
def decodeEvex (m : DecodeMode) (pol : B1RegNon512) (pfx : List LegacyPrefix) (bad : Bool) (bs : List Byte) :
    Decoded :=
  match bs with
  | [] => .truncated
  | p0 :: bs1 =>
    if m ≠ .mode64 ∧ p0.extractLsb' 6 2 ≠ 0b11#2 then .notInSpec
    else match bs1 with
      | p1 :: p2 :: op :: bs4 =>
        let bad' := bad || m == .legacy || p0.extractLsb' 2 2 != 0b00#2 || p1.extractLsb' 2 1 != 1#1
        match form? op with
        | some f =>
          if p0.extractLsb' 0 2 = 0b10#2 ∧ p1.extractLsb' 7 1 = 1#1 ∧ p1.extractLsb' 0 2 = 0b01#2 then
            decodeEvexOperands m pol pfx bad' f p0 p1 p2 bs4
          else if bad' then .undefined else .notInSpec
        | none => if bad' then .undefined else .notInSpec
      | _ => .truncated

/-- After the byte `C5H`, the two-byte VEX prefix, behind which none of the forms stands (R55): not in this spec, but in
`legacy` mode, where every VEX encoding is an undefined opcode (R26, R160); there a next byte whose bits 7:6 are not `11`
makes it another instruction, as it makes `C4H` (log entry 25).
DESIGN CHOICE (log entry 45): a `LOCK`, `66H`, `F2H`, `F3H` or REX byte in front of `C5H` does not make it undefined. R67 (1)
and U3 speak of any VEX prefix, R68 and R142 name `C4H` and `62H` alone, and D26 refuses what R68 does not name. -/
def decodeVex2 (m : DecodeMode) (bs : List Byte) : Decoded :=
  match m, bs with
  | .legacy, [] => .truncated
  | .legacy, b1 :: _ => if b1.extractLsb' 6 2 = 0b11#2 then .undefined else .notInSpec
  | .mode32, _ => .notInSpec
  | .mode64, _ => .notInSpec

/-- The decoder (R67): the first instruction of a byte sequence. -/
def decode (m : DecodeMode) (pol : B1RegNon512) (bs : List Byte) : Decoded :=
  match splitPrefixes m bs with
  | (_, _, []) => .truncated
  | (pfx, bad, b :: rest) =>
    if b = 0xC4#8 then decodeVex m pfx bad rest
    else if b = 0x62#8 then decodeEvex m pol pfx bad rest
    else if b = 0xC5#8 then decodeVex2 m rest
    else .notInSpec

/-! ## The encoder -/

def LegacyPrefix.byte : LegacyPrefix → Byte
  | .seg .es => 0x26#8
  | .seg .cs => 0x2E#8
  | .seg .ss => 0x36#8
  | .seg .ds => 0x3E#8
  | .seg .fs => 0x64#8
  | .seg .gs => 0x65#8
  | .addressSize => 0x67#8

def encodeDisp32 (d : BitVec 32) : List Byte :=
  [d.extractLsb' 0 8, d.extractLsb' 8 8, d.extractLsb' 16 8, d.extractLsb' 24 8]

def Disp.encode : Disp → List Byte
  | .none => []
  | .d8 v => [v]
  | .d32 d => encodeDisp32 d

def Disp.modBits : Disp → BitVec 2
  | .none => 0b00#2
  | .d8 _ => 0b01#2
  | .d32 _ => 0b10#2

/-- The extension bits `X` and `B` of a memory operand (R62); 0 where the operand does not use one. -/
def MemOperand.extX : MemOperand → BitVec 1
  | .sib _ (some i) _ _ => i.extractLsb' 3 1
  | .sibNoBase (some i) _ _ => i.extractLsb' 3 1
  | _ => 0#1

def MemOperand.extB : MemOperand → BitVec 1
  | .base b _ => b.extractLsb' 3 1
  | .sib b _ _ _ => b.extractLsb' 3 1
  | _ => 0#1

/-- The index bits of a SIB byte; `100` is no index. -/
def indexBits : Option GReg → BitVec 3
  | none => 0b100#3
  | some i => i.extractLsb' 0 3

/-- ModRM, SIB and displacement of a memory operand whose `ModRM.reg` is `reg`. -/
def MemOperand.encode (reg : BitVec 3) : MemOperand → List Byte
  | .base b d => (d.modBits ++ reg ++ b.extractLsb' 0 3) :: d.encode
  | .sib b i sc d => (d.modBits ++ reg ++ 0b100#3) :: (sc ++ indexBits i ++ b.extractLsb' 0 3) :: d.encode
  | .sibNoBase i sc d => (0b00#2 ++ reg ++ 0b100#3) :: (sc ++ indexBits i ++ 0b101#3) :: encodeDisp32 d
  | .ripRel d => (0b00#2 ++ reg ++ 0b101#3) :: encodeDisp32 d

/-- The bytes after the prefixes of a VEX form (R53, R54); `l` is `VEX.L`. -/
def encodeVex (f : Form) (l : BitVec 1) (d v : VexReg) (r : VexSrc3) : List Byte :=
  let (x, b) := match r with
    | .reg r => (0#1, r.extractLsb' 3 1)
    | .mem m => (m.extX, m.extB)
  let b1 : Byte := ~~~ d.extractLsb' 3 1 ++ ~~~ x ++ ~~~ b ++ 0b00010#5
  let b2 : Byte := 1#1 ++ ~~~ v ++ l ++ 0b01#2
  let operand : List Byte := match r with
    | .reg r => [0b11#2 ++ d.extractLsb' 0 3 ++ r.extractLsb' 0 3]
    | .mem m => m.encode (d.extractLsb' 0 3)
  0xC4#8 :: b1 :: b2 :: f.opcode :: operand

def VecLen.llBits : VecLen → BitVec 2
  | .v128 => 0b00#2
  | .v256 => 0b01#2
  | .v512 => 0b10#2

/-- The bytes after the prefixes of an EVEX form (R56, R57, R64). -/
def encodeEvex (f : Form) (vl : VecLen) (k : MaskSpec) (d v : VReg) (r : EvexSrc3) : List Byte :=
  let (x, b) := match r with
    | .reg r => (r.extractLsb' 4 1, r.extractLsb' 3 1)
    | .regB r _ => (r.extractLsb' 4 1, r.extractLsb' 3 1)
    | .mem m => (m.extX, m.extB)
    | .bcst m => (m.extX, m.extB)
  let (ll, eb) := match r with
    | .reg _ => (vl.llBits, 0#1)
    | .regB _ rc => (rc, 1#1)
    | .mem _ => (vl.llBits, 0#1)
    | .bcst _ => (vl.llBits, 1#1)
  let p0 : Byte := ~~~ d.extractLsb' 3 1 ++ ~~~ x ++ ~~~ b ++ ~~~ d.extractLsb' 4 1 ++ 0b00#2 ++ 0b10#2
  let p1 : Byte := 1#1 ++ ~~~ v.extractLsb' 0 4 ++ 1#1 ++ 0b01#2
  let p2 : Byte := BitVec.ofBool k.z ++ ll ++ eb ++ ~~~ v.extractLsb' 4 1 ++ k.aaa
  let operand : List Byte := match r with
    | .reg r => [0b11#2 ++ d.extractLsb' 0 3 ++ r.extractLsb' 0 3]
    | .regB r _ => [0b11#2 ++ d.extractLsb' 0 3 ++ r.extractLsb' 0 3]
    | .mem m => m.encode (d.extractLsb' 0 3)
    | .bcst m => m.encode (d.extractLsb' 0 3)
  0x62#8 :: p0 :: p1 :: p2 :: f.opcode :: operand

/-- The bytes of a well-formed instruction. Bits the encoding ignores are written as an assembler writes them:
extension bits 0, so stored as 1. -/
def encode : Instr → List Byte
  | .vfmsubadd132pdXmmVex x d v r => x.map LegacyPrefix.byte ++ encodeVex .f132 0#1 d v r
  | .vfmsubadd213pdXmmVex x d v r => x.map LegacyPrefix.byte ++ encodeVex .f213 0#1 d v r
  | .vfmsubadd231pdXmmVex x d v r => x.map LegacyPrefix.byte ++ encodeVex .f231 0#1 d v r
  | .vfmsubadd132pdYmmVex x d v r => x.map LegacyPrefix.byte ++ encodeVex .f132 1#1 d v r
  | .vfmsubadd213pdYmmVex x d v r => x.map LegacyPrefix.byte ++ encodeVex .f213 1#1 d v r
  | .vfmsubadd231pdYmmVex x d v r => x.map LegacyPrefix.byte ++ encodeVex .f231 1#1 d v r
  | .vfmsubadd132pdXmmEvex x k d v r => x.map LegacyPrefix.byte ++ encodeEvex .f132 .v128 k d v r
  | .vfmsubadd213pdXmmEvex x k d v r => x.map LegacyPrefix.byte ++ encodeEvex .f213 .v128 k d v r
  | .vfmsubadd231pdXmmEvex x k d v r => x.map LegacyPrefix.byte ++ encodeEvex .f231 .v128 k d v r
  | .vfmsubadd132pdYmmEvex x k d v r => x.map LegacyPrefix.byte ++ encodeEvex .f132 .v256 k d v r
  | .vfmsubadd213pdYmmEvex x k d v r => x.map LegacyPrefix.byte ++ encodeEvex .f213 .v256 k d v r
  | .vfmsubadd231pdYmmEvex x k d v r => x.map LegacyPrefix.byte ++ encodeEvex .f231 .v256 k d v r
  | .vfmsubadd132pdZmmEvex x k d v r => x.map LegacyPrefix.byte ++ encodeEvex .f132 .v512 k d v r
  | .vfmsubadd213pdZmmEvex x k d v r => x.map LegacyPrefix.byte ++ encodeEvex .f213 .v512 k d v r
  | .vfmsubadd231pdZmmEvex x k d v r => x.map LegacyPrefix.byte ++ encodeEvex .f231 .v512 k d v r

/-! ## The operands of a form, and its length -/

def VexSrc3.toSrc3 : VexSrc3 → Src3
  | .reg r => .reg (r.setWidth 5)
  | .mem m => .mem m

def EvexSrc3.toSrc3 : EvexSrc3 → Src3
  | .reg r => .reg r
  | .regB r rc => .regB r rc
  | .mem m => .mem m
  | .bcst m => .bcst m

/-- The parameters of `EXEC` for a VEX form. -/
def vexOp (f : Form) (vl : VecLen) (pfx : List LegacyPrefix) (d v : VexReg) (r : VexSrc3) : FormOp :=
  { form := f, vl := vl, pfx := pfx, mask := none, dest := d.setWidth 5, src2 := v.setWidth 5, src3 := r.toSrc3 }

/-- The parameters of `EXEC` for an EVEX form. -/
def evexOp (f : Form) (vl : VecLen) (pfx : List LegacyPrefix) (k : MaskSpec) (d v : VReg) (r : EvexSrc3) : FormOp :=
  { form := f, vl := vl, pfx := pfx, mask := some k, dest := d, src2 := v, src3 := r.toSrc3 }

def Instr.formOp : Instr → FormOp
  | .vfmsubadd132pdXmmVex x d v r => vexOp .f132 .v128 x d v r
  | .vfmsubadd213pdXmmVex x d v r => vexOp .f213 .v128 x d v r
  | .vfmsubadd231pdXmmVex x d v r => vexOp .f231 .v128 x d v r
  | .vfmsubadd132pdYmmVex x d v r => vexOp .f132 .v256 x d v r
  | .vfmsubadd213pdYmmVex x d v r => vexOp .f213 .v256 x d v r
  | .vfmsubadd231pdYmmVex x d v r => vexOp .f231 .v256 x d v r
  | .vfmsubadd132pdXmmEvex x k d v r => evexOp .f132 .v128 x k d v r
  | .vfmsubadd213pdXmmEvex x k d v r => evexOp .f213 .v128 x k d v r
  | .vfmsubadd231pdXmmEvex x k d v r => evexOp .f231 .v128 x k d v r
  | .vfmsubadd132pdYmmEvex x k d v r => evexOp .f132 .v256 x k d v r
  | .vfmsubadd213pdYmmEvex x k d v r => evexOp .f213 .v256 x k d v r
  | .vfmsubadd231pdYmmEvex x k d v r => evexOp .f231 .v256 x k d v r
  | .vfmsubadd132pdZmmEvex x k d v r => evexOp .f132 .v512 x k d v r
  | .vfmsubadd213pdZmmEvex x k d v r => evexOp .f213 .v512 x k d v r
  | .vfmsubadd231pdZmmEvex x k d v r => evexOp .f231 .v512 x k d v r

def Src3.size : Src3 → Nat
  | .reg _ => 0
  | .regB _ _ => 0
  | .mem m => m.size
  | .bcst m => m.size

/-- `len`, the length of the instruction in bytes (R52): prefixes, `P` (3 for VEX, 4 for EVEX), opcode, ModRM, and
`S + D`. -/
def FormOp.len (o : FormOp) : Nat :=
  o.pfx.length + (if o.mask.isNone then 3 else 4) + 1 + 1 + o.src3.size

/-! ## The table's numbering of an instruction's bits -/

/-- The longest instruction, in bytes (R52). -/
def maxLength : Nat := 15

/-- The longest form without its legacy prefixes, in bytes (R52, R123 (a)). -/
def longestForm : Nat := 11

/-- The bytes of the number `w`, byte 0 in bits 7:0. -/
def bytesOfNat : Nat → Nat → List Byte
  | 0, _ => []
  | n + 1, w => BitVec.ofNat 8 w :: bytesOfNat n (w / 256)

/-- The fifteen bytes of a table word of `nbits` bits, the bytes above it zero. -/
def tableBytes (nbits w : Nat) : List Byte := bytesOfNat maxLength (w % 2 ^ nbits)

/-- What the decoder reads, in `Mode64` and under the default parameters, from the table's word. -/
def decodeTableWord (nbits w : Nat) : Option Instr :=
  match decode .mode64 .as512 (tableBytes nbits w) with
  | .instr i _ => some i
  | _ => none

end Sys2Proof
end

