-- ==== Sys2Proof/Machine/State.lean ====
section
/-! DEFINITION. The machine's state, why a step can stop, and the state after reset. -/

namespace Sys2Proof.Machine

/-- A segment register (R25): selector, base, limit, and of its access rights the one R126 asks about. R25 gives the width of
the `FS` and `GS` base alone; the others are the family's, PRESUMED (log entry 43). -/
structure SegReg where
  selector : BitVec 16
  base : Word64
  limit : BitVec 32
  /-- The segment may be read. -/
  readable : Bool
  deriving DecidableEq, Repr

/-- What one 16-byte gate descriptor, with the code-segment descriptor it names, loads (R149). The formats are outside
the spec: a gate is a parameter, already checked and decoded. -/
structure Gate where
  /-- The handler's code segment; selector bits 1:0 are the handler's `CPL`. -/
  cs : SegReg
  rip : Word64
  /-- The gate's IST index; 0 is none. -/
  ist : BitVec 3
  /-- An interrupt gate, which clears `EFLAGS.IF` too. -/
  interrupt : Bool
  deriving DecidableEq, Repr

/-- The state of one logical processor and its memory, with the parameters of the run. INVENTORY.md, under State, names
the rule behind each field. -/
structure State where
  /-- The parameters (R6, D25); no step writes them. -/
  cfg : Config
  /-- `MODE` (R6, D18). -/
  mode : Mode
  /-- `ZMM0` to `ZMM31` (R13); `XMM[n]` and `YMM[n]` are views of `ZMM[n]` (R14). -/
  zmm : Vector Zmm 32
  /-- `k0` to `k7` (R18). -/
  k : Vector (BitVec 64) 8
  /-- `MXCSR` (R20). -/
  mxcsr : BitVec 32
  /-- `RIP` (R22); in `Mode32` `EIP` is its low half and the high half is 0. -/
  rip : Word64
  /-- The model's own: the form before ended at the last byte of the 64-bit address space, so that `pc` is `2^64`, which
  `RIP` does not hold and R123 (b) does not reduce. -/
  ripPast : Bool
  /-- `RFLAGS` (R23). -/
  rflags : BitVec 64
  /-- The sixteen general registers (R24). -/
  gpr : Vector Word64 16
  es : SegReg
  cs : SegReg
  ss : SegReg
  ds : SegReg
  fs : SegReg
  gs : SegReg
  /-- `CR0` (R26). -/
  cr0 : BitVec 32
  /-- `CR2` (R139): the faulting linear address of the last #PF. -/
  cr2 : Word64
  /-- `CR4` (R27). -/
  cr4 : BitVec 32
  /-- `XCR0` (R28). -/
  xcr0 : BitVec 64
  /-- The debug registers (R157). -/
  dr0 : Word64
  dr1 : Word64
  dr2 : Word64
  dr3 : Word64
  dr6 : BitVec 64
  dr7 : BitVec 64
  /-- `IDTR.base` (R42, R149). -/
  idtrBase : Word64
  /-- The gate descriptors, by the linear address of each (R149): a parameter. With none, a fault ends the run (D15). -/
  gates : List (Word64 × Gate)
  /-- `RSP0` of the task-state segment (R149). -/
  rsp0 : Word64
  /-- The stacks an IST index 1 to 7 names (R149). -/
  ist : Vector Word64 7
  /-- Memory by physical address (R30): addresses strictly rising, no byte listed that reads as an unlisted one. -/
  mem : List Host.Cell
  /-- The model's own: how many times the free value of U7 has been taken. -/
  freeCount : Nat
  deriving DecidableEq, Repr

/-- The ways a step stops with a fault. -/
inductive Fault where
  /-- The outcome `Fault(vector, error code)` of the spec (D15), with the state the exception leaves (R150; the MXCSR
  flags of R136, `CR2` of R139). Raised by fetch, by the 15 forms and by the debug traps; a step ends with it when no
  gate is present to deliver it. Safe: it is the spec's own outcome. -/
  | exception (e : Exc) (s : State)
  /-- An instruction byte or a needed operand byte lies where `AddressMap` says there is no memory (D9). Raised by fetch
  and by the operand read. Safe: the model stops where the hardware does something the spec does not say. -/
  | unmapped (pa : Word64)
  /-- A gate is present for `e`, and a push of its frame cannot be made (R151: a fault during delivery is not modelled).
  Raised by exception delivery. Safe: the model stops. -/
  | deliveryFailed (e : Exc) (s : State)
  deriving DecidableEq, Repr

/-- The situations the model gives no meaning (R168 (b)). -/
inductive Refusal where
  /-- Only `exec`'s arm of an instruction that has no meaning yet would answer it; none does. Safe. -/
  | notModelled (mnemonic : String)
  /-- The bytes at the instruction pointer are none of the 15 forms (R70, D26). Raised by fetch. Safe. -/
  | notInSpec
  /-- `Mode32`, an EVEX encoding that asks for a register above 7 (R69, D18, U9). Raised by fetch. Safe. -/
  | mode32Register
  /-- `Mode32`, a memory operand under `67H`: 16-bit addressing (R127, D18, U10). Raised by fetch and by the operand
  read. Safe. -/
  | addressing16
  /-- A byte of the memory operand, needed or not, lies in a device region (R41, R49, D9, U11). Raised by the operand read. Safe. -/
  | deviceOperand (pa : Word64)
  /-- An instruction byte lies in a device region (R41, R42). Raised by fetch. Safe. -/
  | deviceFetch (pa : Word64)
  deriving DecidableEq, Repr

/-- What a step answers. -/
abbrev Result := Host.Outcome State Fault Refusal

/-- A data segment register after reset (R32): selector 0, base 0, limit `FFFFH`. -/
def resetSeg : SegReg := { selector := 0, base := 0, limit := 0xFFFF, readable := true }

/-- The machine after power-up or RESET (R32, R159, R160): real-address mode, first fetch at `FFFFFFF0H`. The values the
spec does not give are named in the assumption log. -/
def State.reset : State where
  cfg := Config.default
  mode := .mode32
  zmm := Vector.replicate 32 (Vector.replicate 8 0)
  k := Vector.replicate 8 0
  mxcsr := 0x1F80
  rip := 0xFFF0
  ripPast := false
  rflags := 0x2
  gpr := Vector.replicate 16 0
  es := resetSeg
  cs := { selector := 0xF000, base := 0xFFFF0000, limit := 0xFFFF, readable := true }
  ss := resetSeg
  ds := resetSeg
  fs := resetSeg
  gs := resetSeg
  cr0 := 0x60000010
  cr2 := 0
  cr4 := 0
  xcr0 := 1
  dr0 := 0
  dr1 := 0
  dr2 := 0
  dr3 := 0
  dr6 := 0xFFFF0FF0
  dr7 := 0x400
  idtrBase := 0
  gates := []
  rsp0 := 0
  ist := Vector.replicate 7 0
  mem := []
  freeCount := 0

end Sys2Proof.Machine
end

