-- ==== Sys2Proof/Machine/Ops.lean ====
section
/-! DEFINITION. The named operations over registers, memory and address translation, and taking an exception. -/

namespace Sys2Proof.Machine

/-! ## Vector and opmask registers -/

def State.readZmm (s : State) (r : VReg) : Zmm := s.zmm[r.toNat]'(by omega)

def State.writeZmm (s : State) (r : VReg) (v : Zmm) : State :=
  { s with zmm := s.zmm.set r.toNat v (by omega) }

/-- Lane `j` of a vector register, bits `64j+63 : 64j` (R8); 0 above lane 7. -/
def laneOf (v : Zmm) (j : Nat) : Lane := if h : j < 8 then v[j]'h else 0

/-- The register whose lane `j` is `f j`. -/
def ofLanes (f : Nat → Lane) : Zmm := #v[f 0, f 1, f 2, f 3, f 4, f 5, f 6, f 7]

/-- The 512 bits of a vector register, lane 0 lowest. -/
def zmmBits (v : Zmm) : BitVec 512 :=
  laneOf v 7 ++ laneOf v 6 ++ laneOf v 5 ++ laneOf v 4 ++ laneOf v 3 ++ laneOf v 2 ++ laneOf v 1 ++ laneOf v 0

/-- `XMM[n]` is bits 127:0 of `ZMM[n]` (R14). -/
def State.xmm (s : State) (r : VReg) : BitVec 128 := (zmmBits (s.readZmm r)).extractLsb' 0 128

/-- `YMM[n]` is bits 255:0 of `ZMM[n]` (R14). -/
def State.ymm (s : State) (r : VReg) : BitVec 256 := (zmmBits (s.readZmm r)).extractLsb' 0 256

/-- `MAX_VL / 64` (R6, D1): the lanes a vector register has on this part. -/
def maxLanes (c : Config) : Nat := if c.hasAVX512F then 8 else 4

def State.readK (s : State) (r : KReg) : BitVec 64 := s.k[r.toNat]'(by omega)

/-! ## General registers, segments, modes -/

def State.readGpr (s : State) (r : GReg) : Word64 := s.gpr[r.toNat]'(by omega)

def State.readSeg (s : State) : Seg → SegReg
  | .es => s.es
  | .cs => s.cs
  | .ss => s.ss
  | .ds => s.ds
  | .fs => s.fs
  | .gs => s.gs

/-- The current privilege level: the low two bits of the `CS` selector (R153). -/
def State.cpl (s : State) : BitVec 2 := s.cs.selector.extractLsb' 0 2

/-- `pc` as a number: `2^64` too, after a form that ended at the last byte of the address space (R123 (b)). -/
def State.pc (s : State) : Nat := s.rip.toNat + if s.ripPast then 2 ^ 64 else 0

/-! Bits of `EFLAGS`: the spec names them, their places are the family's. -/

def State.flagTF (s : State) : Bool := s.rflags.getLsbD 8
def State.flagVM (s : State) : Bool := s.rflags.getLsbD 17
def State.flagAC (s : State) : Bool := s.rflags.getLsbD 18

/-! Bits of `CR0` (R26), `CR4` (R27) and `XCR0` (R28). -/

def State.cr0PE (s : State) : Bool := s.cr0.getLsbD 0
def State.cr0TS (s : State) : Bool := s.cr0.getLsbD 3
def State.cr0AM (s : State) : Bool := s.cr0.getLsbD 18
def State.cr0PG (s : State) : Bool := s.cr0.getLsbD 31
def State.cr4OSXMMEXCPT (s : State) : Bool := s.cr4.getLsbD 10
/-- Five-level paging: linear addresses are 57 bits wide (R36). -/
def State.cr4LA57 (s : State) : Bool := s.cr4.getLsbD 12
def State.cr4OSXSAVE (s : State) : Bool := s.cr4.getLsbD 18
/-- `XCR0[2:1] = 11b`: SSE and AVX state enabled. -/
def State.xcr0Avx (s : State) : Bool := s.xcr0.extractLsb' 1 2 = 0b11#2
/-- `XCR0[7:5] = 111b`: opmask, ZMM_Hi256 and Hi16_ZMM state enabled. -/
def State.xcr0Avx512 (s : State) : Bool := s.xcr0.extractLsb' 5 3 = 0b111#3

/-- Real-address or virtual-8086 mode (R26, R142). -/
def State.legacyMode (s : State) : Bool := !s.cr0PE || s.flagVM

/-- How the bytes at the instruction pointer are read (R67, R69, R142). -/
def State.decodeMode (s : State) : DecodeMode :=
  if s.legacyMode then .legacy else match s.mode with
    | .mode64 => .mode64
    | .mode32 => .mode32

/-- Addresses are formed by the rules of `Mode64`; `legacy` uses those of `Mode32`. -/
def State.is64 (s : State) : Bool := s.decodeMode = .mode64

/-- `ALIGNMENT_CHECK` (R145): `CR0.AM`, `EFLAGS.AC` and `CPL = 3`. -/
def State.alignmentCheck (s : State) : Bool := s.cr0AM && s.flagAC && s.cpl = 3#2

/-! ## Memory: a list of (physical address, byte) pairs in one canonical form -/

/-- What an address no pair lists reads as. -/
def unlistedByte : Byte := 0#8

def memRead : List Host.Cell → Nat → Byte
  | [], _ => unlistedByte
  | (k, b) :: m, a => if k = a then b else memRead m a

/-- Write one byte, keeping the canonical form; writing what an unlisted address reads as removes the pair. -/
def memWrite : List Host.Cell → Nat → Byte → List Host.Cell
  | [], a, b => if b = unlistedByte then [] else [(a, b)]
  | (k, c) :: m, a, b =>
    if a < k then (if b = unlistedByte then (k, c) :: m else (a, b) :: (k, c) :: m)
    else if a = k then (if b = unlistedByte then m else (a, b) :: m)
    else (k, c) :: memWrite m a b

/-- The canonical form, from address `lo` up. -/
def memWfFrom : Nat → List Host.Cell → Bool
  | _, [] => true
  | lo, (k, b) :: m => decide (lo ≤ k) && decide (k < 2 ^ 64) && b != unlistedByte && memWfFrom (k + 1) m

/-- The canonical form of memory: addresses strictly rising, below `2^64`, and no pair that need not be listed. -/
def Memory.wf (m : List Host.Cell) : Bool := memWfFrom 0 m

/-- What `AddressMap` says of a physical address (R42, D9). -/
def regionKind : List Region → Nat → RegionKind
  | [], _ => .ordinary
  | r :: rs, a => if r.base ≤ a ∧ a < r.base + r.size then r.kind else regionKind rs a

/-! ## Linear addresses and translation (R36, R43, R138) -/

/-- Canonical (R36): bits 63:47 all equal, or with five-level paging bits 63:56. -/
def State.canonical (s : State) (a : Word64) : Bool :=
  if s.cr4LA57 then a.extractLsb' 56 8 = 0#8 || a.extractLsb' 56 8 = 0xFF#8
  else a.extractLsb' 47 17 = 0#17 || a.extractLsb' 47 17 = 0x1FFFF#17

/-- The #PF error code (R138): bit 0 `P`, bit 1 `W/R` (0: these accesses read), bit 2 `U/S`, bit 3 `RSVD`, bit 4 `I/D`,
bit 5 `PK`, bit 15 `SGX`. -/
def pageFaultCode (p rsvd : Bool) (acc : Access) (cpl : BitVec 2) (pk sgx : Bool) : BitVec 32 :=
  BitVec.ofBool sgx ++ 0#9 ++ BitVec.ofBool pk ++ BitVec.ofBool (acc = .fetch) ++ BitVec.ofBool rsvd ++
    BitVec.ofBool (cpl = 3#2) ++ 0#1 ++ BitVec.ofBool p |>.setWidth 32

def lookupPage : List (BitVec 52 × Page) → BitVec 52 → Option Page
  | [], _ => none
  | (n, p) :: ps, m => if n = m then some p else lookupPage ps m

/-- An access to a listed page: the causes of #PF of R143 (c), the faulting address being the one accessed, or the physical
address. -/
def accessPage (p : Page) (acc : Access) (cpl : BitVec 2) (la : Word64) : Translated :=
  let fault (rsvd pk sgx : Bool) : Translated := .fault (.pf (pageFaultCode p.present rsvd acc cpl pk sgx)) la
  if !p.present then fault false false false
  else if p.reserved then fault true false false
  else if cpl = 3#2 ∧ p.user = false then fault false false false
  else if acc = .fetch ∧ p.noExec = true then fault false false false
  else if acc = .read ∧ p.keyDenied = true then fault false true false
  else if p.sgxDenied then fault false false true
  else .physical (p.frame ++ la.extractLsb' 0 12)

/-- The answer of the first row that covers an access. -/
def lookupRow : List TranslateRow → Access → BitVec 2 → Word64 → Option Translated
  | [], _, _, _ => none
  | r :: rs, acc, cpl, la =>
    if r.access = acc ∧ r.cpl = cpl ∧ r.first.toNat ≤ la.toNat ∧ la.toNat < r.first.toNat + r.size then
      match r.answer with
      | .physical pa => some (.physical (pa + (la - r.first)))
      | .fault e a => some (.fault e a)
    else lookupRow rs acc cpl la

/-- `Translate(linear address, access, CPL)` (R43). With paging off (`CR0.PG = 0`) a linear address is physical. -/
def State.translate (s : State) (acc : Access) (cpl : BitVec 2) (la : Word64) : Translated :=
  if s.cr0PG then
    match lookupRow s.cfg.translation.rows acc cpl la with
    | some r => r
    | none =>
      match lookupPage s.cfg.translation.pages (la.extractLsb' 12 52) with
      | some p => accessPage p acc cpl la
      | none =>
        match s.cfg.translation.unlisted with
        | .identity => .physical la
        | .absent => .fault (.pf (pageFaultCode false false acc cpl false false)) la
  else .physical la

/-- The byte at a linear address whose translation succeeds. -/
def State.readLinear (s : State) (acc : Access) (la : Word64) : Byte :=
  match s.translate acc s.cpl la with
  | .physical pa => memRead s.mem pa.toNat
  | .fault _ _ => unlistedByte

/-- `MemRead(la, 8)` (R33): little-endian. -/
def State.readQword (s : State) (la : Word64) : Lane :=
  s.readLinear .read (la + 7) ++ s.readLinear .read (la + 6) ++ s.readLinear .read (la + 5) ++
    s.readLinear .read (la + 4) ++ s.readLinear .read (la + 3) ++ s.readLinear .read (la + 2) ++
    s.readLinear .read (la + 1) ++ s.readLinear .read la

/-! ## Exceptions -/

/-- The vector number (R138; R157 for #DB). -/
def excVector : Exc → Nat
  | .db => 1
  | .ud => 6
  | .nm => 7
  | .ss => 12
  | .gp => 13
  | .pf _ => 14
  | .ac => 17
  | .xm => 19

/-- The error code, where the vector has one (R138). -/
def excErrorCode : Exc → Option (BitVec 32)
  | .ss => some 0
  | .gp => some 0
  | .pf c => some c
  | .ac => some 0
  | _ => none

/-- End the instruction with `Fault(e)`, leaving state `s` (R150, D15). -/
def raise (e : Exc) (s : State) : Result := .fault (.exception e s)

/-- What a fault records before it is delivered: for #PF the faulting linear address in `CR2`, else nothing (R139). -/
def State.recordFault (s : State) (e : Exc) (address : Word64) : State :=
  match e with
  | .pf _ => { s with cr2 := address }
  | _ => s

/-- The fault that `Translate` answered (R43), its address recorded. -/
def raiseTranslation (e : Exc) (address : Word64) (s : State) : Result := raise e (s.recordFault e address)

def lookupGate : List (Word64 × Gate) → Word64 → Option Gate
  | [], _ => none
  | (a, g) :: gs, b => if a = b then some g else lookupGate gs b

/-- The gate for an exception: the descriptor at `IDTR.base + 16 * vector` (R149). -/
def State.gateFor (s : State) (e : Exc) : Option Gate :=
  lookupGate s.gates (s.idtrBase + BitVec.ofNat 64 (16 * excVector e))

/-- Write one byte at a linear address, by the data rights of `cpl`; `none` where that byte cannot be written. -/
def storeByte (cpl : BitVec 2) (s : State) (la : Word64) (b : Byte) : Option State :=
  if s.canonical la then
    match s.translate .read cpl la with
    | .physical pa =>
      if regionKind s.cfg.addressMap pa.toNat = .ordinary then some { s with mem := memWrite s.mem pa.toNat b } else none
    | .fault _ _ => none
  else none

/-- Write `n` bytes of `w` from `la` up, little-endian. -/
def storeBytes (cpl : BitVec 2) : Nat → State → Word64 → Word64 → Option State
  | 0, s, _, _ => some s
  | n + 1, s, la, w =>
    (storeByte cpl s la (w.setWidth 8)).bind fun s' => storeBytes cpl n s' (la + 1) (w >>> 8)

/-- Push words of 8 bytes below `sp`, the first one highest; the new stack pointer and the state. -/
def pushWords (cpl : BitVec 2) : List Word64 → Word64 → State → Option (Word64 × State)
  | [], sp, s => some (sp, s)
  | w :: ws, sp, s => (storeBytes cpl 8 s (sp - 8) w).bind fun s' => pushWords cpl ws (sp - 8) s'

/-- The stack delivery switches to (R149): the IST stack, on a privilege change `RSP0`, else the current one; aligned
down to 16 bytes. -/
def State.deliveryStack (s : State) (g : Gate) : Word64 :=
  (if h : g.ist = 0#3 then
    if g.cs.selector.extractLsb' 0 2 ≠ s.cpl then s.rsp0 else s.readGpr 4#4
  else s.ist[g.ist.toNat - 1]'(by have := g.ist.isLt; have : g.ist.toNat ≠ 0 := fun h' => h (BitVec.eq_of_toNat_eq h')
                                  omega)) &&& ~~~ 15#64

/-- `RFLAGS` in the handler (R149): `TF` (8), `NT` (14), `RF` (16) and `VM` (17) cleared, and `IF` (9) by an interrupt
gate. -/
def handlerFlags (g : Gate) (f : BitVec 64) : BitVec 64 :=
  f &&& ~~~ (0x34100#64 ||| if g.interrupt then 0x200#64 else 0)

/-- The frame pushed (R149): `SS`, `RSP`, `RFLAGS`, `CS`, `RIP`, and the error code if the vector has one.
R149 gives the width of the first five (8 bytes each) and none for the error code: that it takes 8 bytes too, zero-extended, is
PRESUMED, the family's (log entry 48). -/
def State.exceptionFrame (s : State) (e : Exc) : List Word64 :=
  [s.ss.selector.setWidth 64, s.readGpr 4#4, s.rflags, s.cs.selector.setWidth 64, s.rip] ++
    match excErrorCode e with
    | some c => [c.setWidth 64]
    | none => []

/-- Enter the handler: `CS:RIP` from the gate, the new stack pointer, the flags; on a privilege change `SS` holds the
null selector of the new level. `RIP` holds the handler's address, so `pc` is not past the top. -/
def State.enterHandler (s : State) (g : Gate) (sp : Word64) : State :=
  let cpl := g.cs.selector.extractLsb' 0 2
  { s with
    cs := g.cs
    rip := g.rip
    ripPast := false
    rflags := handlerFlags g s.rflags
    gpr := s.gpr.set 4 sp
    ss := if cpl ≠ s.cpl then { s.ss with selector := cpl.setWidth 16 } else s.ss }

/-- Taking an exception: delivery in 64-bit mode through the gate of its vector (R149), from the state the fault left
(R150). Where there is no gate, or outside 64-bit mode, the run ends with `Fault(e)` (D15). -/
def takeException (e : Exc) (s : State) : Result :=
  if s.is64 then
    match s.gateFor e with
    | none => .fault (.exception e s)
    | some g =>
      match pushWords (g.cs.selector.extractLsb' 0 2) (s.exceptionFrame e) (s.deliveryStack g) s with
      | none => .fault (.deliveryFailed e s)
      | some (sp, s') => .next (s'.enterHandler g sp)
  else .fault (.exception e s)

/-- The eight bytes at a linear address can be read: canonical, translated, ordinary memory. -/
def State.canReadQword (s : State) (la : Word64) : Bool :=
  (List.range 8).all fun i =>
    let a := la + BitVec.ofNat 64 i
    s.canonical a && match s.translate .read s.cpl a with
      | .physical pa => regionKind s.cfg.addressMap pa.toNat = .ordinary
      | .fault _ _ => false

/-- Return from an exception (R151): `RIP`, `CS`, `RFLAGS`, `RSP`, `SS` popped from the stack; `none` where the frame
cannot be read. None of the 15 forms does it; the hidden parts of `CS` and `SS`, whose descriptors are outside the spec,
are kept. -/
def State.returnFromException (s : State) : Option State :=
  let sp := s.readGpr 4#4
  if [0, 8, 16, 24, 32].all fun d => s.canReadQword (sp + d) then
    some { s with
      rip := s.readQword sp
      ripPast := false
      cs := { s.cs with selector := (s.readQword (sp + 8)).setWidth 16 }
      rflags := s.readQword (sp + 16)
      gpr := s.gpr.set 4 (s.readQword (sp + 24))
      ss := { s.ss with selector := (s.readQword (sp + 32)).setWidth 16 } }
  else none

/-! ## The INIT event -/

/-- The machine after INIT. R32, last column: vector, opmask, `MXCSR`, `XCR0` and memory kept, `CR0.CD` (30) and `CR0.NW`
(29) kept, and `RIP`, `RFLAGS`, the general and segment registers, the rest of `CR0` and `CR4` as after RESET.
DESIGN CHOICE (log entry 6): R32 lists neither `CR2`, `IDTR.base`, `DR0` to `DR3`, `DR6`, `DR7` nor `MODE`, which R159 calls
unspecified, and the model gives them their values after RESET; it keeps the parameters, the gates, `RSP0`, the IST entries
and its own counter. -/
def State.afterInit (s : State) : State :=
  { State.reset with
    cfg := s.cfg
    zmm := s.zmm
    k := s.k
    mxcsr := s.mxcsr
    xcr0 := s.xcr0
    mem := s.mem
    freeCount := s.freeCount
    gates := s.gates
    rsp0 := s.rsp0
    ist := s.ist
    cr0 := (State.reset.cr0 &&& ~~~ 0x60000000#32) ||| (s.cr0 &&& 0x60000000#32) }

end Sys2Proof.Machine
end

