-- ==== Sys2Proof/Machine/Fetch.lean ====
section
/-! DEFINITION. Fetching and decoding the instruction at the instruction pointer (R36, R38, R67, R123, R147 rows 1 to
4), and the launch state that a program's first instruction runs in (R161, R162). -/

namespace Sys2Proof.Machine

/-- The linear address of instruction byte `k` (R123, R126): code-segment base 0 in `Mode64`, else the `CS` base, modulo
`2^32`. -/
def codeAddress (s : State) (k : Nat) : Word64 :=
  if s.is64 then s.rip + BitVec.ofNat 64 k
  else ((s.cs.base + s.rip + BitVec.ofNat 64 k).setWidth 32).setWidth 64

/-- Instruction byte `k` is canonical (`Mode64`, `pc + k` not being reduced) or inside the code limit (R123). DESIGN CHOICE
(log entry 44): outside 64-bit mode the offset `EIP + k` is not reduced before it is held against the limit, so under the
limit `FFFFFFFFH` an instruction whose bytes straddle offset `FFFFFFFFH` is #GP(0). -/
def codeInBounds (s : State) (k : Nat) : Bool :=
  if s.is64 then decide (s.pc + k < 2 ^ 64) && s.canonical (codeAddress s k)
  else decide (s.rip.toNat + k ≤ s.cs.limit.toNat)

/-- What stops the fetch of instruction byte `k`: #GP(0), then a fault of `Translate`, then a device or a hole of the address map. -/
def fetchStop (s : State) (k : Nat) : Option Result :=
  if codeInBounds s k then
    match s.translate .fetch s.cpl (codeAddress s k) with
    | .fault e a => some (raiseTranslation e a s)
    | .physical pa =>
      match regionKind s.cfg.addressMap pa.toNat with
      | .ordinary => none
      | .device => some (.refused (.deviceFetch pa))
      | .unmapped => some (.fault (.unmapped pa))
  else some (raise .gp s)

/-- Instruction byte `k`, where its fetch is not stopped. -/
def fetchByte (s : State) (k : Nat) : Byte := s.readLinear .fetch (codeAddress s k)

/-- The instruction bytes from byte `k` on that can be fetched, at most `n`, and what stops the one after them. -/
def fetchWindow (s : State) : Nat → Nat → List Byte × Option Result
  | 0, _ => ([], none)
  | n + 1, k =>
    match fetchStop s k with
    | some r => ([], some r)
    | none => (fetchByte s k :: (fetchWindow s n (k + 1)).1, (fetchWindow s n (k + 1)).2)

/-- What the instruction pointer points at. -/
inductive Fetched where
  | instr (i : Instr)
  | stop (r : Result)
  deriving Repr

/-- The prefix bytes that stand one after another from instruction byte `k` on and can be fetched, at most `n`. -/
def prefixRun (s : State) : Nat → Nat → Nat
  | 0, _ => 0
  | n + 1, k =>
    if (fetchStop s k).isNone && isPrefix s.decodeMode (fetchByte s k) then prefixRun s n (k + 1) + 1 else 0

/-- More than 15 bytes: what stops the fetch of the first of them that is needed and cannot be fetched (R147 rows 1 and 2,
R123); else the refusal of bytes that are none of the forms (R70, R162, D26); else #GP(0) (R147 row 3, R52, R123 (a)). All its bytes lie among its prefixes, however many, and the longest
form after them; there are no more than `2^64` addresses.
DESIGN CHOICE (log entry 46): a form that `Mode32` refuses (R69, R127) is #GP(0) too. -/
def overlong (s : State) : Result :=
  let w := fetchWindow s (prefixRun s (2 ^ 64) 0 + longestForm) 0
  match decode s.decodeMode s.cfg.b1RegNon512 w.1 with
  | .truncated => w.2.getD (raise .gp s)
  | .notInSpec => .refused .notInSpec
  | .instr _ _ => raise .gp s
  | .undefined => raise .gp s
  | .mode32Register => raise .gp s
  | .addressing16 => raise .gp s

/-- Fetch and decode. A stop of the fetch counts only when the instruction needs that byte. -/
def fetch (s : State) : Fetched :=
  let w := fetchWindow s maxLength 0
  match decode s.decodeMode s.cfg.b1RegNon512 w.1 with
  | .instr i _ => .instr i
  | .undefined => .stop (raise .ud s)
  | .truncated => .stop (w.2.getD (overlong s))
  | .notInSpec => .stop (.refused .notInSpec)
  | .mode32Register => .stop (.refused .mode32Register)
  | .addressing16 => .stop (.refused .addressing16)

/-! ## Launch -/

/-- What R161 has system software do, so that the premises of R162 hold: protected mode with paging, 64-bit mode,
`CR0.TS = 0`, `CR4.OSXSAVE = 1`, the `XCR0` state bits, `EFLAGS.VM = TF = 0`, no breakpoint armed. -/
def State.enabled (s : State) : State :=
  { s with
    mode := .mode64
    ripPast := false
    cr0 := (s.cr0 ||| 0x80000001#32) &&& ~~~ 0x8#32
    cr4 := s.cr4 ||| 0x40000#32
    xcr0 := s.xcr0 ||| 0xE7#64
    rflags := s.rflags &&& ~~~ 0x20100#64
    dr7 := s.dr7 &&& ~~~ 0xFF#64 }

/-- `s` launched (R161, R162): enabled, and `pc` where an instruction of any length is canonical: where it was, or 0. -/
def State.launched (s : State) : State :=
  { s.enabled with rip := if (List.range maxLength).all (codeInBounds s.enabled) then s.rip else 0 }

/-- Place bytes where instruction bytes `k`, `k+1`, … are fetched. -/
def storeCode (s : State) : Nat → List Byte → State
  | _, [] => s
  | k, b :: bs =>
    match s.translate .fetch s.cpl (codeAddress s k) with
    | .physical pa => storeCode { s with mem := memWrite s.mem pa.toNat b } (k + 1) bs
    | .fault _ _ => storeCode s (k + 1) bs

end Sys2Proof.Machine
end

