-- ==== Sys2Proof/Machine/Operands.lean ====
section
/-! DEFINITION. The operands of a form: active lanes (R99), the effective and linear address (R121 to R127), the bytes a
memory operand needs (R49), the faults of the operand read (R143, R145), and the third operand's lanes (R92). -/

namespace Sys2Proof.Machine

/-- `KL = VL / 64` (R81). -/
def vecLanes : VecLen → Nat
  | .v128 => 2
  | .v256 => 4
  | .v512 => 8

/-! ## Active lanes -/

/-- Lane `j` is active: no writemask (a VEX form, or `aaa = 000`), or bit `j` of `K[aaa]` is 1 (R99). -/
def activeLane (s : State) (o : FormOp) (j : Nat) : Bool :=
  match o.mask with
  | none => true
  | some k => k.aaa = 0#3 || (s.readK k.aaa).getLsbD j

/-- `EVEX.z` asks for zeroing-masking (R63). -/
def zeroing (o : FormOp) : Bool :=
  match o.mask with
  | none => false
  | some k => k.z

/-- Some lane of the form is active. -/
def anyActive (s : State) (o : FormOp) : Bool := (List.range (vecLanes o.vl)).any (activeLane s o)

/-! ## The effective address -/

/-- The memory operand, and whether it is a broadcast. -/
def memOperand? (o : FormOp) : Option (MemOperand × Bool) :=
  match o.src3 with
  | .reg _ => none
  | .regB _ _ => none
  | .mem m => some (m, false)
  | .bcst m => some (m, true)

/-- The bytes of the memory operand (R39): `VL/8`, or 8 for a broadcast. -/
def operandSize (o : FormOp) (bcst : Bool) : Nat := if bcst then 8 else 8 * vecLanes o.vl

/-- The multiplier `N` of a `disp8` (R61, R124): 1 under VEX, the operand's size under EVEX. -/
def disp8Scale (o : FormOp) (bcst : Bool) : Nat := if o.mask.isNone then 1 else operandSize o bcst

def dispValue (scale : Nat) : Disp → Word64
  | .none => 0
  | .d8 v => v.signExtend 64 * BitVec.ofNat 64 scale
  | .d32 v => v.signExtend 64

/-- `idx` of R124: the index register times `2^scale`, 0 for no index. -/
def indexValue (s : State) (index : Option GReg) (scale : BitVec 2) : Word64 :=
  match index with
  | none => 0
  | some r => s.readGpr r <<< scale.toNat

/-- The address before truncation to the address size (R124, R125); `len` is the instruction's length. -/
def addressSum (s : State) (scale len : Nat) : MemOperand → Word64
  | .base b d => s.readGpr b + dispValue scale d
  | .sib b i sc d => s.readGpr b + indexValue s i sc + dispValue scale d
  | .sibNoBase i sc d => indexValue s i sc + d.signExtend 64
  | .ripRel d => if s.is64 then s.rip + BitVec.ofNat 64 len + d.signExtend 64 else d.signExtend 64

/-- The address size is 64 bits in `Mode64` without `67H`, else 32 (R121, R127). -/
def address64 (s : State) (o : FormOp) : Bool := s.is64 && !o.pfx.contains .addressSize

/-- The effective address `EA` (R121, R124): the sum modulo `2^A`, zero-extended. -/
def effectiveAddress (s : State) (o : FormOp) (m : MemOperand) (bcst : Bool) : Word64 :=
  let sum := addressSum s (disp8Scale o bcst) o.len m
  if address64 s o then sum else (sum.setWidth 32).setWidth 64

/-! ## The segment and the linear address (R126) -/

/-- The base register of an address, where it has one. -/
def baseReg? : MemOperand → Option GReg
  | .base b _ => some b
  | .sib b _ _ _ => some b
  | .sibNoBase _ _ _ => none
  | .ripRel _ => none

/-- `SS` when the base register is number 4 or 5, else `DS`. -/
def defaultSeg (m : MemOperand) : Seg := if baseReg? m = some 4#4 ∨ baseReg? m = some 5#4 then .ss else .ds

/-- The last segment override among the prefixes. -/
def segOverride : List LegacyPrefix → Option Seg
  | [] => none
  | .seg g :: ps => some ((segOverride ps).getD g)
  | .addressSize :: ps => segOverride ps

/-- The segment of a memory operand. -/
def operandSeg (o : FormOp) (m : MemOperand) : Seg := (segOverride o.pfx).getD (defaultSeg m)

/-- The base a segment adds: in `Mode64` only `FS` and `GS` have one. -/
def segBase (s : State) (g : Seg) : Word64 :=
  if s.is64 then
    match g with
    | .fs => s.fs.base
    | .gs => s.gs.base
    | _ => 0
  else (s.readSeg g).base

/-- The linear address of the byte `off` above the effective address: modulo `2^64`, or `2^32` outside 64-bit mode. -/
def linearByte (s : State) (g : Seg) (ea : Word64) (off : Nat) : Word64 :=
  let la := segBase s g + ea + BitVec.ofNat 64 off
  if s.is64 then la else (la.setWidth 32).setWidth 64

/-! ## The needed bytes (R34, R35, R49) -/

/-- Whether byte `off` of the operand is needed: with fault suppression, whether its lane (for a broadcast, any lane) is
active; without it, every byte is. -/
def neededByte (s : State) (o : FormOp) (bcst : Bool) (off : Nat) : Bool :=
  if s.cfg.faultSuppression then (if bcst then anyActive s o else activeLane s o (off / 8)) else true

/-- The offsets of the needed bytes, lowest first. -/
def neededBytes (s : State) (o : FormOp) (bcst : Bool) : List Nat :=
  (List.range (operandSize o bcst)).filter (neededByte s o bcst)

/-! ## The faults of the operand read (R143, R147 rows 6 to 8) -/

/-- `#SS(0)` through `SS`, `#GP(0)` through any other segment. -/
def segException (g : Seg) : Exc := if g = .ss then .ss else .gp

/-- In `Mode64` a byte's address must not run past the top and must be canonical (R121, R126). -/
def canonicalByte (s : State) (g : Seg) (ea : Word64) (off : Nat) : Bool :=
  decide ((segBase s g + ea).toNat + off < 2 ^ 64) && s.canonical (linearByte s g ea off)

/-- A null selector (R126): index 0 of the global table. -/
def nullSelector (r : SegReg) : Bool := r.selector.extractLsb' 2 14 = 0#14

/-- The segment-level check (R143 (a), R126) of the needed bytes `offs`. -/
def segmentFault (s : State) (g : Seg) (ea : Word64) (offs : List Nat) : Option Exc :=
  if offs.isEmpty then none
  else if s.is64 then (if offs.all (canonicalByte s g ea) then none else some (segException g))
  else if nullSelector (s.readSeg g) then some .gp
  else if (s.readSeg g).readable && offs.all fun off => ea.toNat + off ≤ (s.readSeg g).limit.toNat then none
  else some (segException g)

/-- The alignment check (R143 (b), R145): on, some byte needed, a broadcast (or `AC_ON_FULL_VECTOR`), and the linear
address no multiple of 8. -/
def alignmentFault (s : State) (bcst : Bool) (la : Word64) (offs : List Nat) : Bool :=
  s.alignmentCheck && !offs.isEmpty && (bcst || s.cfg.acOnFullVector) && la.extractLsb' 0 3 != 0#3

/-- The first fault of `Translate` among linear addresses in ascending order, with its faulting address (R43, R139,
R143 (c)). -/
def firstTranslationFault (s : State) (acc : Access) : List Word64 → Option (Exc × Word64)
  | [] => none
  | la :: las =>
    match s.translate acc s.cpl la with
    | .fault e a => some (e, a)
    | .physical _ => firstTranslationFault s acc las

/-- The physical address of the first linear address that translates into a region of the kind asked for. -/
def firstInRegion (s : State) (acc : Access) (kind : RegionKind) : List Word64 → Option Word64
  | [] => none
  | la :: las =>
    match s.translate acc s.cpl la with
    | .fault _ _ => firstInRegion s acc kind las
    | .physical pa =>
      if regionKind s.cfg.addressMap pa.toNat = kind then some pa else firstInRegion s acc kind las

/-- Byte `off` of the operand passes the segment-level check (R126) by itself, needed or not. -/
def segmentAllows (s : State) (g : Seg) (ea : Word64) (off : Nat) : Bool :=
  if s.is64 then canonicalByte s g ea off
  else !nullSelector (s.readSeg g) && (s.readSeg g).readable && decide (ea.toNat + off ≤ (s.readSeg g).limit.toNat)

/-- The linear addresses where the operand lies: of all its bytes, needed or not, that the segment-level check lets through,
lowest offset first. -/
def operandAddresses (s : State) (o : FormOp) (m : MemOperand) (bcst : Bool) : List Word64 :=
  let g := operandSeg o m
  let ea := effectiveAddress s o m bcst
  ((List.range (operandSize o bcst)).filter (segmentAllows s g ea)).map (linearByte s g ea)

/-- The linear addresses of the needed bytes, lowest offset first. -/
def neededAddresses (s : State) (o : FormOp) (m : MemOperand) (bcst : Bool) : List Word64 :=
  (neededBytes s o bcst).map (linearByte s (operandSeg o m) (effectiveAddress s o m bcst))

/-- What stops the operand read, in the order of R147, if anything does: 16-bit addressing has no rule (R127), then
segment, alignment and translation faults; then an operand of which any byte, needed or not, lies in a device region is
refused (R41, R49, D9); then a needed byte in a hole of the address map. DESIGN CHOICE (log entry 21): the spec orders
neither the refusal against the faults nor the device against the hole. -/
def memOperandStop (s : State) (o : FormOp) (m : MemOperand) (bcst : Bool) : Option Result :=
  let ea := effectiveAddress s o m bcst
  let g := operandSeg o m
  let offs := neededBytes s o bcst
  let las := neededAddresses s o m bcst
  if !s.is64 && o.pfx.contains .addressSize then some (.refused .addressing16)
  else match segmentFault s g ea offs with
    | some e => some (raise e s)
    | none =>
      if alignmentFault s bcst (linearByte s g ea 0) offs then some (raise .ac s)
      else match firstTranslationFault s .read las with
        | some (e, a) => some (raiseTranslation e a s)
        | none =>
          match firstInRegion s .read .device (operandAddresses s o m bcst) with
          | some pa => some (.refused (.deviceOperand pa))
          | none =>
            match firstInRegion s .read .unmapped las with
            | some pa => some (.fault (.unmapped pa))
            | none => none

/-- What stops reading the third operand of a form: nothing, for a register. -/
def operandStop (s : State) (o : FormOp) : Option Result :=
  match memOperand? o with
  | none => none
  | some (m, bcst) => memOperandStop s o m bcst

/-! ## The lanes of the operands -/

/-- `MemRead` of lane `j` (R33, R34): the 8 bytes at `EA + 8j`. -/
def memLane (s : State) (g : Seg) (ea : Word64) (j : Nat) : Lane :=
  let b (i : Nat) : Byte := s.readLinear .read (linearByte s g ea (8 * j + i))
  b 7 ++ b 6 ++ b 5 ++ b 4 ++ b 3 ++ b 2 ++ b 1 ++ b 0

/-- Lane `j` of `SRC3` (R92); a broadcast is one qword in every lane. -/
def src3Lane (s : State) (o : FormOp) (j : Nat) : Lane :=
  match o.src3 with
  | .reg r => laneOf (s.readZmm r) j
  | .regB r _ => laneOf (s.readZmm r) j
  | .mem m => memLane s (operandSeg o m) (effectiveAddress s o m false) j
  | .bcst m => memLane s (operandSeg o m) (effectiveAddress s o m true) 0

/-- The roles `a`, `b`, `c` by the mnemonic's digits (R82), from lanes of `DEST`, `SRC2` and `SRC3`. -/
def roles (f : Form) (x1 x2 x3 : Lane) : Lane × Lane × Lane :=
  match f with
  | .f132 => (x1, x3, x2)
  | .f213 => (x2, x1, x3)
  | .f231 => (x2, x3, x1)

end Sys2Proof.Machine
end

