-- ==== Sys2Proof/Machine/Debug.lean ====
section
/-! DEFINITION. Debug exceptions (R157): instruction breakpoints, data breakpoints and single step. -/

namespace Sys2Proof.Machine

/-- `DR0` to `DR3`. -/
def State.drAddress (s : State) (n : Nat) : Word64 :=
  if n = 0 then s.dr0 else if n = 1 then s.dr1 else if n = 2 then s.dr2 else s.dr3

/-- Breakpoint `n` is armed: `DR7` bits `L` and `G`. -/
def State.drEnabled (s : State) (n : Nat) : Bool := s.dr7.getLsbD (2 * n) || s.dr7.getLsbD (2 * n + 1)

/-- `DR7.R/W` of breakpoint `n`: `00` instruction, `11` data read or write. -/
def State.drKind (s : State) (n : Nat) : BitVec 2 := s.dr7.extractLsb' (16 + 4 * n) 2

/-- The bytes breakpoint `n` covers, from `DR7.LEN`. -/
def State.drBytes (s : State) (n : Nat) : Word64 :=
  let len := s.dr7.extractLsb' (18 + 4 * n) 2
  if len = 0b00#2 then 1 else if len = 0b01#2 then 2 else if len = 0b11#2 then 4 else 8

/-- `DR6` bits 3:0 for the breakpoints that satisfy `p`. -/
def hitBits (p : Nat → Bool) : BitVec 64 :=
  (BitVec.ofBool (p 3) ++ BitVec.ofBool (p 2) ++ BitVec.ofBool (p 1) ++ BitVec.ofBool (p 0)).setWidth 64

/-- The instruction breakpoints on the address of the instruction about to run. -/
def codeHits (s : State) : BitVec 64 :=
  hitBits fun n => s.drEnabled n && s.drKind n = 0b00#2 && !s.ripPast && s.drAddress n = codeAddress s 0

/-- Breakpoint `n` covers the byte at `la`. -/
def State.drCovers (s : State) (n : Nat) (la : Word64) : Bool :=
  la &&& ~~~ (s.drBytes n - 1) = s.drAddress n &&& ~~~ (s.drBytes n - 1)

/-- The linear addresses of the operand bytes an instruction reads. -/
def readAddresses (s : State) (o : FormOp) : List Word64 :=
  match memOperand? o with
  | none => []
  | some (m, bcst) => neededAddresses s o m bcst

/-- The data breakpoints of the read/write kind that cover a byte of the memory operand. -/
def dataHits (s : State) (o : FormOp) : BitVec 64 :=
  hitBits fun n => s.drEnabled n && s.drKind n = 0b11#2 && (readAddresses s o).any (s.drCovers n)

/-- `DR6.BS`, bit 14, for `EFLAGS.TF`. -/
def stepBit (s : State) : BitVec 64 := if s.flagTF then 0x4000 else 0

/-- The trap after a completed instruction: #DB, with the cause in `DR6`, when a data breakpoint was hit or `EFLAGS.TF`
was 1. `s` is the state the instruction began in. -/
def debugTrap (s : State) (o : FormOp) (r : Result) : Result :=
  match r with
  | .next t => if dataHits s o ||| stepBit s = 0 then .next t else raise .db { t with dr6 := t.dr6 ||| dataHits s o ||| stepBit s }
  | .fault f => .fault f
  | .refused q => .refused q

/-- No breakpoint is armed and `EFLAGS.TF = 0`: the debug premise of R162. -/
def State.debugQuiet (s : State) : Bool := s.dr7.extractLsb' 0 8 = 0#8 && !s.flagTF

end Sys2Proof.Machine
end

