-- ==== Sys2Proof/Machine/Flags.lean ====
section
/-! DEFINITION. `MXCSR`: its fields (R20), collecting the lanes' flags (R102) and the response to them (R134 to R136). -/

namespace Sys2Proof.Machine

/-! The flags, by their places in `MXCSR[5:0]` (R20). -/

def flagIE : FpFlags := 0b000001#6
def flagDE : FpFlags := 0b000010#6
def flagOE : FpFlags := 0b001000#6
def flagUE : FpFlags := 0b010000#6
def flagPE : FpFlags := 0b100000#6

/-- The pre-computation flags `IE` and `DE` (R136). -/
def preFlags : FpFlags := 0b000011#6

/-! The control and mask fields (R20). -/

def State.mxcsrDAZ (s : State) : Bool := s.mxcsr.getLsbD 6
def State.mxcsrOM (s : State) : Bool := s.mxcsr.getLsbD 10
def State.mxcsrUM (s : State) : Bool := s.mxcsr.getLsbD 11
/-- `MXCSR.RC`, bits 14:13, the source's `MXCSR.RM`. -/
def State.mxcsrRC (s : State) : RoundControl := s.mxcsr.extractLsb' 13 2
def State.mxcsrFTZ (s : State) : Bool := s.mxcsr.getLsbD 15

/-- The status flags `MXCSR[5:0]`. -/
def State.mxcsrFlags (s : State) : FpFlags := s.mxcsr.extractLsb' 0 6

/-- The mask bits `MXCSR[12:7]`, each in the place of its flag. -/
def State.mxcsrMasks (s : State) : FpFlags := s.mxcsr.extractLsb' 7 6

/-- `MXCSR[5:0] <- MXCSR[5:0] OR f`: the flags are sticky (R21). -/
def State.orFlags (s : State) (f : FpFlags) : State := { s with mxcsr := s.mxcsr ||| f.setWidth 32 }

/-- The flags of `f` whose mask bit is 0. -/
def State.unmasked (s : State) (f : FpFlags) : FpFlags := f &&& ~~~ s.mxcsrMasks

/-- The flags an instruction leaves when it faults (R136): `shown` under `two_phase`; under `any_subset` a free part of
`raised` (U7). -/
def State.leaveFlags (s : State) (shown raised : FpFlags) : State :=
  match s.cfg.flagPolicy with
  | .twoPhase => s.orFlags shown
  | .anySubset => { s.orFlags (Config.freeFaultFlags s.freeCount &&& raised) with freeCount := s.freeCount + 1 }

/-- Whether the raised flags let the instruction complete, and the state with the flags written. -/
inductive FpResponse where
  | completes (s : State)
  | faults (s : State)
  deriving DecidableEq, Repr

/-- The response to the union `f` of the active lanes' flags (R102, R134 to R136): an unmasked pre-computation flag
faults and hides the post-computation flags, an unmasked post-computation flag faults, and else all are recorded. -/
def fpRespond (s : State) (f : FpFlags) : FpResponse :=
  if s.unmasked (f &&& preFlags) ≠ 0 then .faults (s.leaveFlags (f &&& preFlags) f)
  else if s.unmasked f ≠ 0 then .faults (s.leaveFlags f f)
  else .completes (s.orFlags f)

/-- An unmasked SIMD floating-point exception is #XM, or #UD with `CR4.OSXMMEXCPT = 0` (R135). -/
def State.fpException (s : State) : Exc := if s.cr4OSXMMEXCPT then .xm else .ud

end Sys2Proof.Machine
end

