-- ==== Sys2Proof/Machine/Numerics.lean ====
section
/-! DEFINITION. The one-lane operation `FMA64` (R80 to R98): IEEE 754 binary64 fused multiply-add with one rounding, in
exact integer arithmetic. -/

namespace Sys2Proof.Machine

/-! ## The format (R80) -/

def fpSign (v : Lane) : Bool := v.getLsbD 63
def fpExp (v : Lane) : Nat := (v.extractLsb' 52 11).toNat
def fpFrac (v : Lane) : Nat := (v.extractLsb' 0 52).toNat

def fpZero (v : Lane) : Bool := fpExp v = 0 && fpFrac v = 0
def fpDenormal (v : Lane) : Bool := fpExp v = 0 && fpFrac v != 0
def fpInf (v : Lane) : Bool := fpExp v = 2047 && fpFrac v = 0
def fpNaN (v : Lane) : Bool := fpExp v = 2047 && fpFrac v != 0
/-- A signaling NaN: bit 51 is 0. -/
def fpSNaN (v : Lane) : Bool := fpNaN v && !v.getLsbD 51

/-- `QNaN_INDEFINITE`. -/
def qnanIndefinite : Lane := 0xFFF8000000000000#64

/-- `quiet(v)` sets bit 51 and changes nothing else. -/
def quiet (v : Lane) : Lane := v ||| 0x0008000000000000#64

/-- Bit 63 alone. -/
def signBit : Lane := 0x8000000000000000#64

def signed (neg : Bool) (magnitude : Lane) : Lane := if neg then magnitude ||| signBit else magnitude

/-- The integer `m` of `|v| = m * 2^e` for a finite `v`. -/
def fpMant (v : Lane) : Nat := if fpExp v = 0 then fpFrac v else 2 ^ 52 + fpFrac v

/-- The exponent `e` of `|v| = m * 2^e` for a finite `v`. -/
def fpScale (v : Lane) : Int := if fpExp v = 0 then -1074 else (fpExp v : Int) - 1075

/-! ## Operands: DAZ and the odd lane's negation -/

/-- DAZ replaces a denormal operand by the zero of its sign (R95). -/
def dazOperand (daz : Bool) (v : Lane) : Lane := if daz && fpDenormal v then v &&& signBit else v

/-- In an odd lane the addend is negated (R85). -/
def negOperand (neg : Bool) (c : Lane) : Lane := if neg then c ^^^ signBit else c

/-! ## Exact values -/

/-- A non-zero real number, exactly: `(-1)^neg * mant * 2^scale`, `mant > 0`. -/
structure Exact where
  neg : Bool
  mant : Nat
  scale : Int
  deriving DecidableEq, Repr

/-- `n * 2^(from - to)` for `to ≤ from`. -/
def alignTo (lo : Int) (mant : Nat) (scale : Int) : Nat := mant * 2 ^ (scale - lo).toNat

def signedInt (neg : Bool) (n : Nat) : Int := if neg then -(n : Int) else n

/-- The exact sum of R86 step 7, `real(a) * real(b) + real(c)`, as an integer at the scale beside it. -/
def exactSum (a b c : Lane) : Int × Int :=
  let sp := fpScale a + fpScale b
  let lo := min sp (fpScale c)
  (signedInt (fpSign a != fpSign b) (alignTo lo (fpMant a * fpMant b) sp) +
    signedInt (fpSign c) (alignTo lo (fpMant c) (fpScale c)), lo)

/-! ## Rounding (R87, R90) -/

/-- Whether a magnitude `n + rem / 2^d` (in units of the grid, `0 < rem < 2^d`) is rounded away from zero. -/
def roundsUp (rc : RoundControl) (neg : Bool) (n rem d : Nat) : Bool :=
  if rem = 0 then false
  else if rc = 0b00#2 then decide (2 ^ d < 2 * rem) || (decide (2 * rem = 2 ^ d) && n % 2 == 1)
  else if rc = 0b01#2 then neg
  else if rc = 0b10#2 then !neg
  else false

/-- `|x|` rounded to a multiple of `2^q`: the multiple, and whether the rounding was inexact. -/
def roundGrid (rc : RoundControl) (x : Exact) (q : Int) : Nat × Bool :=
  if q ≤ x.scale then (alignTo q x.mant x.scale, false)
  else
    let d := (q - x.scale).toNat
    let n := x.mant / 2 ^ d
    let rem := x.mant % 2 ^ d
    (if roundsUp rc x.neg n rem d then n + 1 else n, rem != 0)

/-- The exponent `e` of `|x| = m * 2^e` with `1 ≤ m < 2`. -/
def Exact.exponent (x : Exact) : Int := (x.mant.log2 : Int) + x.scale

/-- Infinity, or the largest finite value, on masked overflow (R96). -/
def overflowResult (rc : RoundControl) (neg : Bool) : Lane :=
  let toInf := if rc = 0b00#2 then true else if rc = 0b01#2 then neg else if rc = 0b10#2 then !neg else false
  signed neg (if toInf then 0x7FF0000000000000#64 else 0x7FEFFFFFFFFFFFFF#64)

/-- Round a non-zero exact sum and raise the post-computation flags (R90, R96 to R98). -/
def roundSum (rc : RoundControl) (ftz um om : Bool) (x : Exact) : Lane × FpFlags :=
  let e := x.exponent
  let (n, inexact) := roundGrid rc x (e - 52)
  -- a carry out of the top: |r0| = 2^(e+1)
  let (n, e) := if n = 2 ^ 53 then (2 ^ 52, e + 1) else (n, e)
  if 1023 < e then
    (overflowResult rc x.neg, if om then flagOE ||| flagPE else flagOE)
  else if e < -1022 then
    let (m, tinyInexact) := roundGrid rc x (-1074)
    if !um then (signed x.neg (BitVec.ofNat 64 m), flagUE)
    else if ftz then (signed x.neg 0, flagUE ||| flagPE)
    else (signed x.neg (BitVec.ofNat 64 m), if tinyInexact then flagUE ||| flagPE else 0)
  else
    (signed x.neg (BitVec.ofNat 64 ((e + 1023).toNat * 2 ^ 52 + (n - 2 ^ 52))), if inexact then flagPE else 0)

/-- The sign of a zero sum (R91): two zero terms of one sign keep it; else `+0`, and `-0` under round down. -/
def zeroSumNeg (rc : RoundControl) (a b c : Lane) : Bool :=
  let sp := fpSign a != fpSign b
  if fpMant a * fpMant b = 0 ∧ sp = fpSign c then sp else rc = 0b01#2

/-! ## FMA64 (R86) -/

/-- `inf * 0` or `0 * inf` (R93 (a)). -/
def invalidProduct (a b : Lane) : Bool := (fpInf a && fpZero b) || (fpZero a && fpInf b)

/-- R86 step 4: the invalid operation (R93), `c` being negated already. -/
def invalidFma (a b c : Lane) : Bool :=
  invalidProduct a b || ((fpInf a || fpInf b) && fpInf c && ((fpSign a != fpSign b) != fpSign c))

/-- The NaN result (R94): the first NaN of `a`, `b`, `c`, quieted; `IE` for any signaling operand. `izq` is
`INFZERO_QNAN_IE`: `inf * 0` with a quiet NaN addend raises `IE` too. -/
def nanResult (izq daz : Bool) (a b c : Lane) : Lane × FpFlags :=
  (quiet (if fpNaN a then a else if fpNaN b then b else c),
   if fpSNaN a || fpSNaN b || fpSNaN c || (izq && invalidProduct (dazOperand daz a) (dazOperand daz b)) then flagIE
   else 0)

/-- Steps 4 to 8 of R86, on operands past DAZ and negation. -/
def fmaOrdered (rc : RoundControl) (ftz um om : Bool) (a b c : Lane) : Lane × FpFlags :=
  if invalidFma a b c then (qnanIndefinite, flagIE)
  else
    let de : FpFlags := if fpDenormal a || fpDenormal b || fpDenormal c then flagDE else 0
    if fpInf a || fpInf b then (signed (fpSign a != fpSign b) 0x7FF0000000000000#64, de)
    else if fpInf c then (c, de)
    else
      let (sum, scale) := exactSum a b c
      if sum = 0 then (signed (zeroSumNeg rc a b c) 0, de)
      else
        let (r, f) := roundSum rc ftz um om { neg := decide (sum < 0), mant := sum.natAbs, scale := scale }
        (r, de ||| f)

/-- `FMA64(rc, daz, ftz, um, om, a, b, c, neg)` (R86), with the parameter `INFZERO_QNAN_IE` first. -/
def fma64 (izq : Bool) (rc : RoundControl) (daz ftz um om : Bool) (a b c : Lane) (neg : Bool) : Lane × FpFlags :=
  if fpNaN a || fpNaN b || fpNaN c then nanResult izq daz a b c
  else
    fmaOrdered rc ftz um om (dazOperand daz a) (dazOperand daz b) (negOperand neg (dazOperand daz c))

end Sys2Proof.Machine
end

