-- ==== Sys2Proof/Machine/Exec.lean ====
section
/-! DEFINITION. `EXEC(form, VL, enc)` (R104), which every form's meaning is: the enable checks (R142, R144), the lanes,
the response to their flags, and the write-back. -/

namespace Sys2Proof.Machine

/-! ## The checks before any operand is read -/

/-- The CPUID flags of the form are present (R2, R72, R142). -/
def cpuidOk (c : Config) (o : FormOp) : Bool :=
  match o.mask with
  | none => c.hasFMA
  | some _ => c.hasAVX512F && (o.vl = .v512 || c.hasAVX512VL)

/-- The rows of R142 that speak of the machine's state and of the mask fields: none makes the form #UD. -/
def formEnabled (s : State) (o : FormOp) : Bool :=
  !s.legacyMode && s.cr4OSXSAVE && s.xcr0Avx && (o.mask.isNone || s.xcr0Avx512) && cpuidOk s.cfg o &&
    o.mask.all MaskSpec.wf

/-! ## The rounding control (R89, R137) -/

/-- `EVEX.RC` when the form uses embedded rounding: a register operand with `EVEX.b = 1` at `VL = 512`. -/
def embeddedRC (o : FormOp) : Option RoundControl :=
  match o.src3, o.vl with
  | .regB _ rc, .v512 => some rc
  | _, _ => none

/-- `SET_RM` (R89): the rounding control of this instruction. -/
def roundControl (s : State) (o : FormOp) : RoundControl := (embeddedRC o).getD s.mxcsrRC

/-- All exceptions are suppressed (R137): embedded rounding, unless `SAE_UPDATES_FLAGS`. -/
def suppressAll (s : State) (o : FormOp) : Bool := (embeddedRC o).isSome && !s.cfg.saeUpdatesFlags

/-! ## The lanes -/

/-- Lane `j`: the result and the flags of `FMA64` (R86) on the lanes in their roles, the addend negated in an odd lane
(R83). -/
def laneResult (s : State) (o : FormOp) (j : Nat) : Lane × FpFlags :=
  let (a, b, c) := roles o.form (laneOf (s.readZmm o.dest) j) (laneOf (s.readZmm o.src2) j) (src3Lane s o j)
  fma64 s.cfg.infZeroQnanIE (roundControl s o) s.mxcsrDAZ s.mxcsrFTZ (suppressAll s o || s.mxcsrUM)
    (suppressAll s o || s.mxcsrOM) a b c (j % 2 == 1)

/-- The union `F` of the active lanes' flags among lanes `0 .. n-1` (R102). -/
def unionFlags (s : State) (o : FormOp) : Nat → FpFlags
  | 0 => 0
  | n + 1 => unionFlags s o n ||| if activeLane s o n then (laneResult s o n).2 else 0

/-- The new lane `j` of `DEST` (R99, R101): the result, zero or the old lane below `VL`; zero from `VL` up to `MAX_VL`;
above `MAX_VL` there is no register. -/
def newLane (s : State) (o : FormOp) (j : Nat) : Lane :=
  if j < vecLanes o.vl then
    if activeLane s o j then (laneResult s o j).1
    else if zeroing o then 0
    else laneOf (s.readZmm o.dest) j
  else if j < maxLanes s.cfg then 0
  else laneOf (s.readZmm o.dest) j

/-! ## Completion -/

/-- `pc + len` (R22), the bits that `RIP` holds: in `Mode32` the sum is taken modulo `2^32`. -/
def nextPc (s : State) (len : Nat) : Word64 :=
  let pc := s.rip + BitVec.ofNat 64 len
  if s.is64 then pc else (pc.setWidth 32).setWidth 64

/-- In `Mode64` `pc + len` is not reduced (R123 (b)): whether it is past the 64 bits of `RIP`. -/
def nextPast (s : State) (len : Nat) : Bool := s.is64 && decide (2 ^ 64 ≤ s.pc + len)

/-- `s` with the destination written and the instruction pointer advanced; `s0` is the state the operands were read
in. -/
def writeBack (s0 : State) (o : FormOp) (s : State) : State :=
  { s.writeZmm o.dest (ofLanes (newLane s0 o)) with rip := nextPc s0 o.len, ripPast := nextPast s0 o.len }

/-- The lanes, their exceptions and the write-back (R104 steps 3 to 5), the operands being readable. -/
def computeForm (o : FormOp) (s : State) : Result :=
  if suppressAll s o then .next (writeBack s o s)
  else match fpRespond s (unionFlags s o (vecLanes o.vl)) with
    | .completes s' => .next (writeBack s o s')
    | .faults s' => raise s'.fpException s'

/-- `EXEC` (R104): #UD (R142), #NM (R144), the faults of the operand read, then the lanes. -/
def execForm (o : FormOp) (s : State) : Result :=
  if !formEnabled s o then raise .ud s
  else if s.cr0TS then raise .nm s
  else match operandStop s o with
    | some r => r
    | none => computeForm o s

end Sys2Proof.Machine
end

