-- ==== Sys2Proof/Machine/EvexForms.lean ====
section
/-! DEFINITION. The meanings of the nine EVEX forms T7 to T15 (R111 to R119): `EXEC` with the form's parameters. -/

namespace Sys2Proof.Machine

/-- R111: `VFMSUBADD132PD xmm1 {k1}{z}, xmm2, xmm3/m128/m64bcst`. -/
def execVfmsubadd132pdXmmEvex (pfx : List LegacyPrefix) (mask : MaskSpec) (dest src2 : VReg) (src3 : EvexSrc3)
    (s : State) : Result :=
  execForm (evexOp .f132 .v128 pfx mask dest src2 src3) s

/-- R112: `VFMSUBADD213PD xmm1 {k1}{z}, xmm2, xmm3/m128/m64bcst`. -/
def execVfmsubadd213pdXmmEvex (pfx : List LegacyPrefix) (mask : MaskSpec) (dest src2 : VReg) (src3 : EvexSrc3)
    (s : State) : Result :=
  execForm (evexOp .f213 .v128 pfx mask dest src2 src3) s

/-- R113: `VFMSUBADD231PD xmm1 {k1}{z}, xmm2, xmm3/m128/m64bcst`. -/
def execVfmsubadd231pdXmmEvex (pfx : List LegacyPrefix) (mask : MaskSpec) (dest src2 : VReg) (src3 : EvexSrc3)
    (s : State) : Result :=
  execForm (evexOp .f231 .v128 pfx mask dest src2 src3) s

/-- R114: `VFMSUBADD132PD ymm1 {k1}{z}, ymm2, ymm3/m256/m64bcst`. -/
def execVfmsubadd132pdYmmEvex (pfx : List LegacyPrefix) (mask : MaskSpec) (dest src2 : VReg) (src3 : EvexSrc3)
    (s : State) : Result :=
  execForm (evexOp .f132 .v256 pfx mask dest src2 src3) s

/-- R115: `VFMSUBADD213PD ymm1 {k1}{z}, ymm2, ymm3/m256/m64bcst`. -/
def execVfmsubadd213pdYmmEvex (pfx : List LegacyPrefix) (mask : MaskSpec) (dest src2 : VReg) (src3 : EvexSrc3)
    (s : State) : Result :=
  execForm (evexOp .f213 .v256 pfx mask dest src2 src3) s

/-- R116: `VFMSUBADD231PD ymm1 {k1}{z}, ymm2, ymm3/m256/m64bcst`. -/
def execVfmsubadd231pdYmmEvex (pfx : List LegacyPrefix) (mask : MaskSpec) (dest src2 : VReg) (src3 : EvexSrc3)
    (s : State) : Result :=
  execForm (evexOp .f231 .v256 pfx mask dest src2 src3) s

/-- R117: `VFMSUBADD132PD zmm1 {k1}{z}, zmm2, zmm3/m512/m64bcst{er}`. -/
def execVfmsubadd132pdZmmEvex (pfx : List LegacyPrefix) (mask : MaskSpec) (dest src2 : VReg) (src3 : EvexSrc3)
    (s : State) : Result :=
  execForm (evexOp .f132 .v512 pfx mask dest src2 src3) s

/-- R118: `VFMSUBADD213PD zmm1 {k1}{z}, zmm2, zmm3/m512/m64bcst{er}`. -/
def execVfmsubadd213pdZmmEvex (pfx : List LegacyPrefix) (mask : MaskSpec) (dest src2 : VReg) (src3 : EvexSrc3)
    (s : State) : Result :=
  execForm (evexOp .f213 .v512 pfx mask dest src2 src3) s

/-- R119: `VFMSUBADD231PD zmm1 {k1}{z}, zmm2, zmm3/m512/m64bcst{er}`. -/
def execVfmsubadd231pdZmmEvex (pfx : List LegacyPrefix) (mask : MaskSpec) (dest src2 : VReg) (src3 : EvexSrc3)
    (s : State) : Result :=
  execForm (evexOp .f231 .v512 pfx mask dest src2 src3) s

end Sys2Proof.Machine
end

