-- ==== Sys2Proof/Machine/VexForms.lean ====
section
/-! DEFINITION. The meanings of the six VEX forms T1 to T6 (R105 to R110): `EXEC` with the form's parameters. -/

namespace Sys2Proof.Machine

/-- R105: `VFMSUBADD132PD xmm1, xmm2, xmm3/m128`. -/
def execVfmsubadd132pdXmmVex (pfx : List LegacyPrefix) (dest src2 : VexReg) (src3 : VexSrc3) (s : State) : Result :=
  execForm (vexOp .f132 .v128 pfx dest src2 src3) s

/-- R106: `VFMSUBADD213PD xmm1, xmm2, xmm3/m128`. -/
def execVfmsubadd213pdXmmVex (pfx : List LegacyPrefix) (dest src2 : VexReg) (src3 : VexSrc3) (s : State) : Result :=
  execForm (vexOp .f213 .v128 pfx dest src2 src3) s

/-- R107: `VFMSUBADD231PD xmm1, xmm2, xmm3/m128`. -/
def execVfmsubadd231pdXmmVex (pfx : List LegacyPrefix) (dest src2 : VexReg) (src3 : VexSrc3) (s : State) : Result :=
  execForm (vexOp .f231 .v128 pfx dest src2 src3) s

/-- R108: `VFMSUBADD132PD ymm1, ymm2, ymm3/m256`. -/
def execVfmsubadd132pdYmmVex (pfx : List LegacyPrefix) (dest src2 : VexReg) (src3 : VexSrc3) (s : State) : Result :=
  execForm (vexOp .f132 .v256 pfx dest src2 src3) s

/-- R109: `VFMSUBADD213PD ymm1, ymm2, ymm3/m256`. -/
def execVfmsubadd213pdYmmVex (pfx : List LegacyPrefix) (dest src2 : VexReg) (src3 : VexSrc3) (s : State) : Result :=
  execForm (vexOp .f213 .v256 pfx dest src2 src3) s

/-- R110: `VFMSUBADD231PD ymm1, ymm2, ymm3/m256`. -/
def execVfmsubadd231pdYmmVex (pfx : List LegacyPrefix) (dest src2 : VexReg) (src3 : VexSrc3) (s : State) : Result :=
  execForm (vexOp .f231 .v256 pfx dest src2 src3) s

end Sys2Proof.Machine
end

