-- ==== Sys2Proof/Machine/Dispatch.lean ====
section
/-! DEFINITION. One arm per form, in the order of the opcode table. -/

namespace Sys2Proof.Machine

def exec (i : Instr) (s : State) : Host.Outcome State Fault Refusal :=
  match i with
  | .vfmsubadd132pdXmmVex pfx dest src2 src3 => Sys2Proof.Machine.execVfmsubadd132pdXmmVex pfx dest src2 src3 s
  | .vfmsubadd213pdXmmVex pfx dest src2 src3 => Sys2Proof.Machine.execVfmsubadd213pdXmmVex pfx dest src2 src3 s
  | .vfmsubadd231pdXmmVex pfx dest src2 src3 => Sys2Proof.Machine.execVfmsubadd231pdXmmVex pfx dest src2 src3 s
  | .vfmsubadd132pdYmmVex pfx dest src2 src3 => Sys2Proof.Machine.execVfmsubadd132pdYmmVex pfx dest src2 src3 s
  | .vfmsubadd213pdYmmVex pfx dest src2 src3 => Sys2Proof.Machine.execVfmsubadd213pdYmmVex pfx dest src2 src3 s
  | .vfmsubadd231pdYmmVex pfx dest src2 src3 => Sys2Proof.Machine.execVfmsubadd231pdYmmVex pfx dest src2 src3 s
  | .vfmsubadd132pdXmmEvex pfx mask dest src2 src3 => Sys2Proof.Machine.execVfmsubadd132pdXmmEvex pfx mask dest src2 src3 s
  | .vfmsubadd213pdXmmEvex pfx mask dest src2 src3 => Sys2Proof.Machine.execVfmsubadd213pdXmmEvex pfx mask dest src2 src3 s
  | .vfmsubadd231pdXmmEvex pfx mask dest src2 src3 => Sys2Proof.Machine.execVfmsubadd231pdXmmEvex pfx mask dest src2 src3 s
  | .vfmsubadd132pdYmmEvex pfx mask dest src2 src3 => Sys2Proof.Machine.execVfmsubadd132pdYmmEvex pfx mask dest src2 src3 s
  | .vfmsubadd213pdYmmEvex pfx mask dest src2 src3 => Sys2Proof.Machine.execVfmsubadd213pdYmmEvex pfx mask dest src2 src3 s
  | .vfmsubadd231pdYmmEvex pfx mask dest src2 src3 => Sys2Proof.Machine.execVfmsubadd231pdYmmEvex pfx mask dest src2 src3 s
  | .vfmsubadd132pdZmmEvex pfx mask dest src2 src3 => Sys2Proof.Machine.execVfmsubadd132pdZmmEvex pfx mask dest src2 src3 s
  | .vfmsubadd213pdZmmEvex pfx mask dest src2 src3 => Sys2Proof.Machine.execVfmsubadd213pdZmmEvex pfx mask dest src2 src3 s
  | .vfmsubadd231pdZmmEvex pfx mask dest src2 src3 => Sys2Proof.Machine.execVfmsubadd231pdZmmEvex pfx mask dest src2 src3 s

end Sys2Proof.Machine
end

