-- ==== Sys2Proof/Machine/Step.lean ====
section
/-! DEFINITION. One step (R12): debug breakpoints, fetch and decode, the instruction, and the delivery of an exception. -/

namespace Sys2Proof.Machine

/-- An exception is taken (R149) or ends the run (D15); every other outcome stands. -/
def deliver (r : Result) : Result :=
  match r with
  | .fault (.exception e s) => takeException e s
  | .fault (.unmapped pa) => .fault (.unmapped pa)
  | .fault (.deliveryFailed e s) => .fault (.deliveryFailed e s)
  | .next t => .next t
  | .refused q => .refused q

/-- The instruction at the instruction pointer, before delivery. -/
def stepInstr (s : State) : Result :=
  if codeHits s = 0 then
    match fetch s with
    | .instr i => debugTrap s i.formOp (exec i s)
    | .stop r => r
  else raise .db { s with dr6 := s.dr6 ||| codeHits s }

/-- One step of the machine. -/
def step (s : State) : Host.Outcome State Fault Refusal := deliver (stepInstr s)

/-- `s` launched (R162), with the table's word stored where the next instruction is fetched. -/
def State.withFetchWord (s : State) (nbits w : Nat) : State := storeCode s.launched 0 (tableBytes nbits w)

end Sys2Proof.Machine
end

