-- ==== Sys2Proof/Machine/Run.lean ====
section
/-! DEFINITION. The run of a finite program (R168): it ends in a fault, in a refusal, or when `pc` reaches the byte after the
last instruction. -/

namespace Sys2Proof.Machine

/-- The bytes of a program, a finite list of the forms (R168 (c)). -/
def programBytes : List Instr → List Byte
  | [] => []
  | i :: is => encode i ++ programBytes is

/-- `pc` at the byte after the last of a program that begins at the instruction pointer: modulo `2^32` outside 64-bit mode
(R22), not reduced in it (R123 (b)). -/
def State.programEnd (s : State) (p : List Instr) : Nat :=
  if s.is64 then s.pc + (programBytes p).length else (s.pc + (programBytes p).length) % 2 ^ 32

/-- What a run is after a number of steps (R168). -/
inductive RunEnd where
  /-- (c): `pc` is the byte after the last. -/
  | finished (s : State)
  /-- (a): a fault outcome, which is final (D15). -/
  | fault (f : Fault)
  /-- (b): a refusal. -/
  | refused (q : Refusal)
  /-- The steps are used up and the run has not ended. -/
  | running (s : State)
  deriving DecidableEq, Repr

/-- Run for at most `n` steps, to the end of the program at `stop`. -/
def run (stop : Nat) : Nat → State → RunEnd
  | 0, s => if s.pc = stop then .finished s else .running s
  | n + 1, s =>
    if s.pc = stop then .finished s
    else match step s with
      | .next t => run stop n t
      | .fault f => .fault f
      | .refused q => .refused q

/-- Run a program that lies at the instruction pointer. -/
def runProgram (p : List Instr) (n : Nat) (s : State) : RunEnd := run (s.programEnd p) n s

/-- The meanings of a program's instructions one after another, up to the first that does not complete. -/
def execAll : List Instr → State → Result
  | [], s => .next s
  | i :: is, s =>
    match exec i s with
    | .next t => execAll is t
    | .fault f => .fault f
    | .refused q => .refused q

end Sys2Proof.Machine
end

