-- ==== Sys2Proof/Safety.lean ====
section
/-! DEFINITION. The terms the claims use: when a form completes, what a completed form leaves, the launch premises of
R162, the invariant of the machine, and the real value of a lane. -/

namespace Sys2Proof.Machine

/-! ## When a form completes -/

/-- The flags the active lanes of a form raise (R102). -/
def raisedFlags (s : State) (o : FormOp) : FpFlags := unionFlags s o (vecLanes o.vl)

/-- No raised flag is unmasked, or exceptions are suppressed (R134, R137). -/
def fpQuiet (s : State) (o : FormOp) : Bool := suppressAll s o || s.unmasked (raisedFlags s o) = 0

/-- Where a form executes normally: enabled (R142), `CR0.TS = 0` (R144), its operand readable (R143, R145), and no
unmasked floating-point exception (R134). -/
def Completes (s : State) (o : FormOp) : Prop :=
  formEnabled s o = true ∧ s.cr0TS = false ∧ operandStop s o = none ∧ fpQuiet s o = true

/-- The five exceptions the forms can raise are masked (R134); `ZM` is not consulted (R20). -/
def State.allMasked (s : State) : Bool := s.mxcsrMasks &&& 0b111011#6 = 0b111011#6

/-- A form whose third operand is a register. -/
def registerForm (o : FormOp) : Bool :=
  match o.src3 with
  | .reg _ => true
  | .regB _ _ => true
  | .mem _ => false
  | .bcst _ => false

/-- Byte `off` of the operand, needed or not, lies in a device region (R41): it passes the segment-level check and translates
there. -/
def InDevice (s : State) (o : FormOp) (m : MemOperand) (bcst : Bool) (off : Nat) : Prop :=
  let ea := effectiveAddress s o m bcst
  let g := operandSeg o m
  segmentAllows s g ea off = true ∧ ∃ pa, s.translate .read s.cpl (linearByte s g ea off) = .physical pa ∧
    regionKind s.cfg.addressMap pa.toNat = .device

/-- A memory operand that can be read in `Mode64`: every needed byte canonical (R126), translated (R43) and in ordinary
memory, no byte of the operand in a device region (R41), and no alignment check failing (R145). -/
def Readable64 (s : State) (o : FormOp) (m : MemOperand) (bcst : Bool) : Prop :=
  let ea := effectiveAddress s o m bcst
  let g := operandSeg o m
  (∀ off ∈ neededBytes s o bcst, (segBase s g + ea).toNat + off < 2 ^ 64 ∧ s.canonical (linearByte s g ea off) = true ∧
    ∃ pa, s.translate .read s.cpl (linearByte s g ea off) = .physical pa ∧
      regionKind s.cfg.addressMap pa.toNat = .ordinary) ∧
  (∀ off, off < operandSize o bcst → ¬ InDevice s o m bcst off) ∧
  (s.alignmentCheck = true → neededBytes s o bcst ≠ [] → (bcst || s.cfg.acOnFullVector) = true →
    (linearByte s g ea 0).extractLsb' 0 3 = 0#3)

/-! ## Addresses, as the spec's tables give them -/

/-- The table of R124, before truncation, by the bits of ModRM and of the bytes `tail` after it (a SIB byte, if there is one,
and the displacement): `x` and `b` are the extension bits `X` and `B`, `n` is the multiplier `N` of a `disp8`, `next` the
address of the next instruction (R125). -/
def addressRow (s : State) (x b : BitVec 1) (n : Nat) (next : Word64) (modrm : Byte) (tail : List Byte) : Word64 :=
  let mode := modrm.extractLsb' 6 2
  let rm := modrm.extractLsb' 0 3
  let sib := tail.getD 0 0
  let d8 (k : Nat) : Word64 := BitVec.ofNat 64 n * (tail.getD k 0).signExtend 64
  let d32 (k : Nat) : Word64 :=
    (tail.getD (k + 3) 0 ++ tail.getD (k + 2) 0 ++ tail.getD (k + 1) 0 ++ tail.getD k 0).signExtend 64
  let index : GReg := x ++ sib.extractLsb' 3 3
  let idx : Word64 := if index = 0b0100#4 then 0 else s.readGpr index * BitVec.ofNat 64 (2 ^ (sib.extractLsb' 6 2).toNat)
  if rm = 0b100#3 then
    let base : GReg := b ++ sib.extractLsb' 0 3
    if mode = 0b00#2 then
      if sib.extractLsb' 0 3 = 0b101#3 then idx + d32 1 else s.readGpr base + idx
    else if mode = 0b01#2 then s.readGpr base + idx + d8 1
    else s.readGpr base + idx + d32 1
  else if mode = 0b00#2 then
    if rm = 0b101#3 then (if s.is64 then next + d32 0 else d32 0) else s.readGpr (b ++ rm)
  else if mode = 0b01#2 then s.readGpr (b ++ rm) + d8 0
  else s.readGpr (b ++ rm) + d32 0

/-- The effective address is cut to the address size (R121, R127): 64 bits in `Mode64` without `67H`, else 32. -/
def truncatedAddress (s : State) (pfx : List LegacyPrefix) (a : Word64) : Word64 :=
  if s.is64 = true ∧ LegacyPrefix.addressSize ∉ pfx then a else (a.setWidth 32).setWidth 64

/-- The base register is number 4 or 5, by the bits R126 names. -/
def stackBased (b : BitVec 1) (modrm : Byte) (tail : List Byte) : Prop :=
  let mode := modrm.extractLsb' 6 2
  let rm := modrm.extractLsb' 0 3
  let base := (tail.getD 0 0).extractLsb' 0 3
  b = 0#1 ∧ (rm = 0b101#3 ∧ mode ≠ 0b00#2 ∨
    rm = 0b100#3 ∧ (base = 0b100#3 ∨ base = 0b101#3 ∧ mode ≠ 0b00#2))

/-- The last segment override among prefixes (R126). -/
def lastOverride (pfx : List LegacyPrefix) : Option Seg :=
  pfx.reverse.findSome? fun
    | .seg g => some g
    | .addressSize => none

/-! ## What a completed form leaves -/

/-- The lane function under `MXCSR` (R88): `a * b + c`, or `a * b - c` in an odd lane. -/
def mxcsrFma (s : State) (a b c : Lane) (j : Nat) : Lane × FpFlags :=
  fma64 s.cfg.infZeroQnanIE s.mxcsrRC s.mxcsrDAZ s.mxcsrFTZ s.mxcsrUM s.mxcsrOM a b c (j % 2 == 1)

/-- The lane function under an embedded rounding control, every exception masked (R89, R137). -/
def embeddedFma (rc : RoundControl) (s : State) (a b c : Lane) (j : Nat) : Lane × FpFlags :=
  fma64 s.cfg.infZeroQnanIE rc s.mxcsrDAZ s.mxcsrFTZ true true a b c (j % 2 == 1)

/-- The lane function a form uses: `EVEX.RC` with everything masked under embedded rounding, else `MXCSR`. Under the
parameter `SAE_UPDATES_FLAGS` embedded rounding takes its rounding control only. -/
def formFma (s : State) (o : FormOp) (a b c : Lane) (j : Nat) : Lane × FpFlags :=
  match embeddedRC o with
  | none => mxcsrFma s a b c j
  | some rc =>
    if s.cfg.saeUpdatesFlags then
      fma64 s.cfg.infZeroQnanIE rc s.mxcsrDAZ s.mxcsrFTZ s.mxcsrUM s.mxcsrOM a b c (j % 2 == 1)
    else embeddedFma rc s a b c j

/-- The union of the flags `f j` over lanes `0 .. n-1`. -/
def orLanes (n : Nat) (f : Nat → FpFlags) : FpFlags := (List.range n).foldl (fun acc j => acc ||| f j) 0

/-- `pc <- pc + len` (R22, R123 (b)): the bits `RIP` holds, and whether the sum is past them. -/
def PcAdvances (s t : State) (len : Nat) : Prop := t.rip = nextPc s len ∧ t.ripPast = nextPast s len

/-- Every part of the state a form may not write is as before (R104): all but the destination, `MXCSR` and the
instruction pointer. Memory is compared byte by byte. -/
structure Frame (s t : State) (dest : VReg) : Prop where
  cfg : t.cfg = s.cfg
  mode : t.mode = s.mode
  zmm : ∀ r, r ≠ dest → t.readZmm r = s.readZmm r
  k : ∀ r, t.readK r = s.readK r
  gpr : ∀ r, t.readGpr r = s.readGpr r
  rflags : t.rflags = s.rflags
  seg : ∀ g, t.readSeg g = s.readSeg g
  control : t.cr0 = s.cr0 ∧ t.cr2 = s.cr2 ∧ t.cr4 = s.cr4 ∧ t.xcr0 = s.xcr0
  debug : t.dr0 = s.dr0 ∧ t.dr1 = s.dr1 ∧ t.dr2 = s.dr2 ∧ t.dr3 = s.dr3 ∧ t.dr6 = s.dr6 ∧ t.dr7 = s.dr7
  tables : t.idtrBase = s.idtrBase ∧ t.gates = s.gates ∧ t.rsp0 = s.rsp0 ∧ t.ist = s.ist
  mem : ∀ a, memRead t.mem a = memRead s.mem a
  freeCount : t.freeCount = s.freeCount

/-- A completed form of `n` lanes with every lane active: lane `j` of the destination is the result `f j`, the lanes
above are zero up to `MAX_VL` (R101), the flags are ORed into `MXCSR` (R102), the pc advances (R22). -/
structure CompletedAll (s t : State) (o : FormOp) (n : Nat) (f : Nat → Lane × FpFlags) : Prop where
  lanes : ∀ j, j < n → laneOf (t.readZmm o.dest) j = (f j).1
  upper : ∀ j, n ≤ j → j < maxLanes s.cfg → laneOf (t.readZmm o.dest) j = 0
  mxcsr : t.mxcsr = s.mxcsr ||| (orLanes n fun j => (f j).2).setWidth 32
  pc : PcAdvances s t o.len
  frame : Frame s t o.dest

/-- A completed EVEX form of `n` lanes under the writemask `k` (R99): an active lane is its result, an inactive one is
kept or zeroed, the upper lanes are zero, the active lanes' flags are ORed into `MXCSR` unless suppressed. -/
structure CompletedMasked (s t : State) (o : FormOp) (k : MaskSpec) (n : Nat) (f : Nat → Lane × FpFlags) : Prop where
  active : ∀ j, j < n → (k.aaa = 0#3 ∨ (s.readK k.aaa).getLsbD j = true) → laneOf (t.readZmm o.dest) j = (f j).1
  merged : ∀ j, j < n → ¬ (k.aaa = 0#3 ∨ (s.readK k.aaa).getLsbD j = true) → k.z = false →
    laneOf (t.readZmm o.dest) j = laneOf (s.readZmm o.dest) j
  zeroed : ∀ j, j < n → ¬ (k.aaa = 0#3 ∨ (s.readK k.aaa).getLsbD j = true) → k.z = true →
    laneOf (t.readZmm o.dest) j = 0
  upper : ∀ j, n ≤ j → j < maxLanes s.cfg → laneOf (t.readZmm o.dest) j = 0
  mxcsr : t.mxcsr = if suppressAll s o then s.mxcsr else
    s.mxcsr ||| (orLanes n fun j =>
      if k.aaa = 0#3 ∨ (s.readK k.aaa).getLsbD j = true then (f j).2 else 0).setWidth 32
  pc : PcAdvances s t o.len
  frame : Frame s t o.dest

/-- `t` is `s` but for the MXCSR status flags, `CR2` and the model's own counter: all a fault may change (R139, R150). -/
def SameButFaultRecord (s t : State) : Prop :=
  t = { s with mxcsr := t.mxcsr, cr2 := t.cr2, freeCount := t.freeCount } ∧
    t.mxcsr.extractLsb' 6 26 = s.mxcsr.extractLsb' 6 26

/-! ## Launch (R162) and the invariant -/

/-- The premises of R162 that speak of the state, row by row, where `pc` points at the instruction `i`: the mode and the
enables, `CR0.TS`, `MXCSR[31:16]`, `pc` canonical and at the first byte of `i`, every byte of which can be fetched, and no
breakpoint or single step. -/
structure LaunchPremises (s : State) (i : Instr) : Prop where
  mode : s.legacyMode = false
  enables : formEnabled s i.formOp = true
  taskSwitched : s.cr0TS = false
  mxcsr : s.mxcsr.extractLsb' 16 16 = 0#16
  canonical : s.is64 = true → s.ripPast = false ∧ s.canonical s.rip = true
  instruction : fetch s = .instr i
  fetchable : ∀ n, n < i.formOp.len → fetchStop s n = none
  debug : s.debugQuiet = true

/-- The invariant of the machine: memory canonical; the reserved half of `MXCSR` zero (R20); opmask bits above `KWIDTH`
zero (R18); vector bits above `MAX_VL` zero where the part has no AVX-512 (R13); outside 64-bit mode the upper half of
the instruction pointer zero (R22); and past the top of the address space, which only 64-bit mode reaches, it stands at 0
(R123 (b)). -/
structure Inv (s : State) : Prop where
  mem : Memory.wf s.mem = true
  mxcsr : s.mxcsr.extractLsb' 16 16 = 0#16
  k : s.cfg.kwidth = .w16 → ∀ r, (s.readK r).extractLsb' 16 48 = 0#48
  zmm : s.cfg.hasAVX512F = false → ∀ r j, 4 ≤ j → laneOf (s.readZmm r) j = 0
  rip : s.is64 = false → s.rip.extractLsb' 32 32 = 0#32
  past : s.ripPast = true → s.is64 = true ∧ s.rip = 0

/-! ## The real value of a lane (R80) -/

/-- Not an infinity and not a NaN. -/
def fpFinite (v : Lane) : Bool := fpExp v != 2047

/-- The real value of a finite lane. -/
def fpValue (v : Lane) : ℚ := (if fpSign v then -1 else 1) * (fpMant v : ℚ) * (2 : ℚ) ^ fpScale v

/-- The exact sum of R86 step 7: `a * b + c`, or `a * b - c` for `neg`. -/
def exactFma (a b c : Lane) (neg : Bool) : ℚ := fpValue a * fpValue b + (if neg then -fpValue c else fpValue c)

/-- The rounding control `rc` takes a value of the sign `neg` away from zero. -/
def roundsAway (rc : RoundControl) (neg : Bool) : Bool := (rc = 0b01#2 && neg) || (rc = 0b10#2 && !neg)

/-- Rounding `s` under `rc` with unbounded exponent passes `MAXF` (R96): the least magnitude that does is the midpoint of
`MAXF` and `2^1024` to nearest, anything above `MAXF` away from zero, and `2^1024` toward zero. -/
def Overflows (rc : RoundControl) (s : ℚ) : Prop :=
  if rc = 0b00#2 then (2 : ℚ) ^ (1024 : ℤ) - (2 : ℚ) ^ (970 : ℤ) ≤ |s|
  else if roundsAway rc (decide (s < 0)) then (2 : ℚ) ^ (1024 : ℤ) - (2 : ℚ) ^ (971 : ℤ) < |s|
  else (2 : ℚ) ^ (1024 : ℤ) ≤ |s|

/-- Rounding `s` under `rc` with unbounded exponent stays below `MINN` (R97, tininess after rounding). -/
def Tiny (rc : RoundControl) (s : ℚ) : Prop :=
  s ≠ 0 ∧
    if rc = 0b00#2 then |s| < (2 : ℚ) ^ (-1022 : ℤ) - (2 : ℚ) ^ (-1076 : ℤ)
    else if roundsAway rc (decide (s < 0)) then |s| ≤ (2 : ℚ) ^ (-1022 : ℤ) - (2 : ℚ) ^ (-1075 : ℤ)
    else |s| < (2 : ℚ) ^ (-1022 : ℤ)

end Sys2Proof.Machine
end

