-- ==== Sys2Proof/Certificates/Slice0/Obligations.lean ====
section
/-! DEFINITION. The statements for the provers. Each docstring names the rules of the spec it rests on. -/

open Sys2Proof Sys2Proof.Machine

/-! ## Encoding and decoding -/

/-- Decoding the encoding of a well-formed instruction gives it back, and leaves the bytes after it (R51 to R64, R69). -/
def Obligations.DecodeEncodeRoundTrip : Prop :=
  ∀ (m : DecodeMode) (p : B1RegNon512) (i : Instr) (rest : List Byte), i.wf m p = true →
    decode m p (encode i ++ rest) = .instr i rest

/-- A decoded instruction consumes exactly `len` bytes: prefixes, `P`, opcode, ModRM, SIB, displacement (R52). -/
def Obligations.DecodeConsumesLength : Prop :=
  ∀ (m : DecodeMode) (p : B1RegNon512) (bs : List Byte) (i : Instr) (rest : List Byte), decode m p bs = .instr i rest →
    ∃ used, bs = used ++ rest ∧ used.length = i.formOp.len

/-- What the decoder reads from at most 15 bytes is well formed: no register the mode lacks, no reserved field
combination, no operand form the encoding has not (R15, R52, R59, R63, R64, R69). -/
def Obligations.DecodedInstructionWellFormed : Prop :=
  ∀ (m : DecodeMode) (p : B1RegNon512) (bs : List Byte) (i : Instr) (rest : List Byte), bs.length ≤ 15 →
    decode m p bs = .instr i rest → i.wf m p = true

/-- Words written out from the spec's encodings (R79; X9, X27, X36, X41) decode to the instructions they stand for. -/
def Obligations.SpecWordsDecode : Prop :=
  decode .mode64 .as512 [0xC4, 0xE2, 0xE9, 0x97, 0xCB] = .instr (.vfmsubadd132pdXmmVex [] 1 2 (.reg 3)) [] ∧
  decode .mode64 .as512 [0xC4, 0x02, 0xAD, 0xB7, 0x4C, 0xE3, 0x40] =
    .instr (.vfmsubadd231pdYmmVex [] 9 10 (.mem (.sib 11 (some 12) 3 (.d8 0x40)))) [] ∧
  decode .mode64 .as512 [0x62, 0xF2, 0xED, 0xC9, 0xA7, 0xCB] =
    .instr (.vfmsubadd213pdZmmEvex [] { aaa := 1, z := true } 1 2 (.reg 3)) [] ∧
  decode .mode64 .as512 [0x62, 0xF2, 0xED, 0x5B, 0xB7, 0x0B] =
    .instr (.vfmsubadd231pdZmmEvex [] { aaa := 3, z := false } 1 2 (.bcst (.base 3 .none))) [] ∧
  decode .mode64 .as512 [0x62, 0x22, 0x8D, 0x47, 0x97, 0xC9] =
    .instr (.vfmsubadd132pdZmmEvex [] { aaa := 7, z := false } 25 30 (.reg 17)) [] ∧
  decode .mode64 .as512 [0x62, 0xF2, 0xED, 0x78, 0xB7, 0xCB] =
    .instr (.vfmsubadd231pdZmmEvex [] { aaa := 0, z := false } 1 2 (.regB 3 3)) []

/-- The reserved EVEX combinations (a) to (d) of R71 are undefined opcodes in both modes, `L'L = 11` is round toward zero
with `mod = 11` and `b = 1`, and VEX has no reserved combination. `tail` holds the bytes a SIB byte and a displacement may
take; outside 64-bit mode bits 7:6 of the byte after `62H` or `C4H` are `11` (R69). -/
def Obligations.ReservedEvexFieldsUndefined : Prop :=
  (∀ (m : DecodeMode) (p : B1RegNon512) (f : Form) (p0 p1 p2 modrm : Byte) (tail : List Byte), 5 ≤ tail.length →
    (m = .mode64 ∨ m = .mode32 ∧ p0.extractLsb' 6 2 = 0b11#2) →
    let bs := 0x62#8 :: p0 :: p1 :: p2 :: f.opcode :: modrm :: tail
    let fixed := p0.extractLsb' 0 2 = 0b10#2 ∧ p1.extractLsb' 7 1 = 1#1 ∧ p1.extractLsb' 0 2 = 0b01#2
    let mod11 := modrm.extractLsb' 6 2 = 0b11#2
    let b := p2.extractLsb' 4 1 = 1#1
    let ll := p2.extractLsb' 5 2
    let maskBad := p2.extractLsb' 7 1 = 1#1 ∧ p2.extractLsb' 0 3 = 0#3
    (p0.extractLsb' 2 2 ≠ 0b00#2 → decode m p bs = .undefined) ∧
    (p1.extractLsb' 2 1 ≠ 1#1 → decode m p bs = .undefined) ∧
    (fixed → maskBad → decode m p bs = .undefined) ∧
    (fixed → ll = 0b11#2 → ¬ (mod11 ∧ b) → decode m p bs = .undefined) ∧
    (fixed → p0.extractLsb' 2 2 = 0b00#2 → p1.extractLsb' 2 1 = 1#1 → ¬ maskBad → mod11 → b → ll = 0b11#2 →
      (m = .mode32 → p0.extractLsb' 4 1 = 1#1 ∧ p1.extractLsb' 6 1 = 1#1 ∧ p2.extractLsb' 3 1 = 1#1) →
      ∃ k d v r, decode m p bs = .instr (evexInstr f .v512 [] k d v (.regB r 0b11#2)) tail)) ∧
  (∀ (m : DecodeMode) (p : B1RegNon512) (f : Form) (b1 b2 modrm : Byte) (tail : List Byte), 5 ≤ tail.length →
    (m = .mode64 ∨ m = .mode32 ∧ b1.extractLsb' 6 2 = 0b11#2) →
    b1.extractLsb' 0 5 = 0b00010#5 → b2.extractLsb' 7 1 = 1#1 → b2.extractLsb' 0 2 = 0b01#2 →
    ∃ i rest, decode m p (0xC4#8 :: b1 :: b2 :: f.opcode :: modrm :: tail) = .instr i rest) ∧
  (∀ s : State, decode s.decodeMode s.cfg.b1RegNon512 (fetchWindow s maxLength 0).1 = .undefined →
    fetch s = .stop (raise .ud s))

/-- A `LOCK`, `66H`, `F2H`, `F3H` or (in 64-bit mode) REX byte among the prefixes makes any of the forms an undefined
opcode (R68). -/
def Obligations.ForbiddenPrefixUndefined : Prop :=
  ∀ (m : DecodeMode) (p : B1RegNon512) (pre : List Byte) (i : Instr) (rest : List Byte), i.wf m p = true →
    (∀ b ∈ pre, b ∈ [0x26#8, 0x2E#8, 0x36#8, 0x3E#8, 0x64#8, 0x65#8, 0x67#8, 0xF0#8, 0x66#8, 0xF2#8, 0xF3#8] ∨
      (m = .mode64 ∧ 0x40#8 ≤ b ∧ b ≤ 0x4F#8)) →
    (∃ b ∈ pre, b ∈ [0xF0#8, 0x66#8, 0xF2#8, 0xF3#8] ∨ (m = .mode64 ∧ 0x40#8 ≤ b ∧ b ≤ 0x4F#8)) →
    decode m p (pre ++ encode i ++ rest) = .undefined

/-- How the register numbers of an EVEX form with a register third operand are assembled in 64-bit mode (R62), and that
`b = 1` makes it the 512-bit form with `EVEX.RC = P2[6:5]` whatever those bits hold (R64 (b), R57). -/
def Obligations.EvexRegisterFormFields : Prop :=
  ∀ (f : Form) (p0 p1 p2 modrm : Byte) (rest : List Byte),
    p0.extractLsb' 0 4 = 0b0010#4 → p1.extractLsb' 7 1 = 1#1 → p1.extractLsb' 0 3 = 0b101#3 →
    modrm.extractLsb' 6 2 = 0b11#2 → ¬ (p2.extractLsb' 7 1 = 1#1 ∧ p2.extractLsb' 0 3 = 0#3) →
    let d : VReg := ~~~ p0.extractLsb' 4 1 ++ ~~~ p0.extractLsb' 7 1 ++ modrm.extractLsb' 3 3
    let v : VReg := ~~~ p2.extractLsb' 3 1 ++ ~~~ p1.extractLsb' 3 4
    let r : VReg := ~~~ p0.extractLsb' 6 1 ++ ~~~ p0.extractLsb' 5 1 ++ modrm.extractLsb' 0 3
    let k : MaskSpec := { aaa := p2.extractLsb' 0 3, z := p2.getLsbD 7 }
    let bs := 0x62#8 :: p0 :: p1 :: p2 :: f.opcode :: modrm :: rest
    (p2.getLsbD 4 = true → decode .mode64 .as512 bs = .instr (evexInstr f .v512 [] k d v (.regB r (p2.extractLsb' 5 2))) rest) ∧
    (p2.getLsbD 4 = false → p2.extractLsb' 5 2 = 0b00#2 →
      decode .mode64 .as512 bs = .instr (evexInstr f .v128 [] k d v (.reg r)) rest) ∧
    (p2.getLsbD 4 = false → p2.extractLsb' 5 2 = 0b01#2 →
      decode .mode64 .as512 bs = .instr (evexInstr f .v256 [] k d v (.reg r)) rest) ∧
    (p2.getLsbD 4 = false → p2.extractLsb' 5 2 = 0b10#2 →
      decode .mode64 .as512 bs = .instr (evexInstr f .v512 [] k d v (.reg r)) rest)

/-- Behind the two-byte VEX prefix `C5H`, whatever allowed prefixes precede it, the decoder finds none of the forms (R55): it
reports "not in this spec" (R70, U1, D26), but in `legacy` mode, where a VEX encoding is an undefined opcode (R26, R160), a
next byte whose bits 7:6 are `11` makes it one (log entry 25). -/
def Obligations.TwoByteVexNeverDecodes : Prop :=
  ∀ (m : DecodeMode) (p : B1RegNon512) (pre : List LegacyPrefix) (bs : List Byte),
    let d := decode m p (pre.map LegacyPrefix.byte ++ 0xC5#8 :: bs)
    (∀ i rest, d ≠ .instr i rest) ∧ (m ≠ .legacy → d = .notInSpec) ∧
    (∀ b rest, m = .legacy → bs = b :: rest → d = if b.extractLsb' 6 2 = 0b11#2 then .undefined else .notInSpec)

/-! ## The step -/

/-- When the bytes at the instruction pointer decode to an instruction and no breakpoint is on it, the step is that
instruction, the debug trap after it, and the delivery of its exception; with nothing armed, a next state of the
instruction is the step's, and an exception is taken (R12, R157, R149). -/
def Obligations.StepRunsDecodedInstruction : Prop :=
  ∀ (s : State) (i : Instr) (rest : List Byte), codeHits s = 0 →
    decode s.decodeMode s.cfg.b1RegNon512 (fetchWindow s maxLength 0).1 = .instr i rest →
    step s = deliver (debugTrap s i.formOp (exec i s)) ∧
    (s.debugQuiet = true → ∀ t, exec i s = .next t → step s = .next t) ∧
    (s.debugQuiet = true → ∀ e u, exec i s = .fault (.exception e u) → step s = takeException e u)

/-- Where the bytes of a well-formed instruction's encoding lie at the instruction pointer and can be fetched, the step runs
that instruction (R36, R38, R67). -/
def Obligations.StoredInstructionRuns : Prop :=
  ∀ (s : State) (i : Instr), i.wf s.decodeMode s.cfg.b1RegNon512 = true → codeHits s = 0 →
    (∀ (n : Nat) (h : n < (encode i).length), fetchStop s n = none ∧ fetchByte s n = (encode i)[n]) →
    step s = deliver (debugTrap s i.formOp (exec i s))

/-- The reset state meets the invariant. -/
def Obligations.ResetMeetsInvariant : Prop := Inv State.reset

/-- Every step keeps the invariant: memory canonical, the reserved half of `MXCSR` zero (R20), no opmask bit above
`KWIDTH` (R18), no vector bit above `MAX_VL` (R13), `EIP` 32 bits wide outside 64-bit mode (R22). The invariant is the
model's (log entries 2, 3, 38). -/
def Obligations.StepKeepsInvariant : Prop := ∀ s t : State, Inv s → step s = .next t → Inv t

/-- No step writes a parameter, an opmask register, a control register other than `CR2`, `XCR0`, a data segment register, a
breakpoint address, `DR7` or a descriptor table; and of `MXCSR` no bit but the five flags (R19, R21, R25 to R28, R129). Over
a delivered exception it is the model's choice that the base and limit of `SS` (log entry 13), the mode (log entry 41), the
gates, `RSP0` and the IST entries (log entry 12) are kept. -/
def Obligations.StepKeepsControlState : Prop :=
  ∀ s t : State, step s = .next t →
    t.cfg = s.cfg ∧ t.mode = s.mode ∧ t.k = s.k ∧ t.cr0 = s.cr0 ∧ t.cr4 = s.cr4 ∧ t.xcr0 = s.xcr0 ∧
    t.es = s.es ∧ t.ds = s.ds ∧ t.fs = s.fs ∧ t.gs = s.gs ∧ t.ss.base = s.ss.base ∧ t.ss.limit = s.ss.limit ∧
    t.dr0 = s.dr0 ∧ t.dr1 = s.dr1 ∧ t.dr2 = s.dr2 ∧ t.dr3 = s.dr3 ∧ t.dr7 = s.dr7 ∧
    t.idtrBase = s.idtrBase ∧ t.gates = s.gates ∧ t.rsp0 = s.rsp0 ∧ t.ist = s.ist ∧
    t.mxcsr &&& 0xFFFFFFC4#32 = s.mxcsr &&& 0xFFFFFFC4#32 ∧ s.mxcsr &&& ~~~ t.mxcsr = 0

/-- Where no gate is present to deliver an exception, no step writes memory, a general register, any segment register, the
integer flags, `CR2` or `DR6`; every step is one of the forms completing (R30, R104, D15; log entry 12). -/
def Obligations.StepWithoutGatesWritesNoMemory : Prop :=
  ∀ s t : State, s.gates = [] → step s = .next t →
    (∀ a, memRead t.mem a = memRead s.mem a) ∧ t.gpr = s.gpr ∧ t.rflags = s.rflags ∧ (∀ g, t.readSeg g = s.readSeg g) ∧
    t.cr2 = s.cr2 ∧ t.dr6 = s.dr6 ∧ ∃ i, fetch s = .instr i ∧ exec i s = .next t

/-- An instruction of more than 15 bytes is #GP(0) (R52, R123 (a)), ahead of any #UD (R147): prefix bytes of any kind in
front of the encoding of a form, together more than 15 bytes, all of which can be fetched (where one cannot, R147 puts its
fault first: `FetchFaults`). Left out is 16-bit addressing, whose length the spec does not give (R127). In `legacy` mode the
encodings are those of `Mode32` (log entry 25). Bytes that are none of the forms, and can be fetched as far as they show it,
are refused and not faulted, however many they are (R70, R162, D26). -/
def Obligations.OverlongInstructionFaults : Prop :=
  (∀ (s : State) (pre : List Byte) (i : Instr), s.debugQuiet = true →
    i.wf (if s.decodeMode = .mode64 then .mode64 else .mode32) s.cfg.b1RegNon512 = true →
    (∀ b ∈ pre, b ∈ [0x26#8, 0x2E#8, 0x36#8, 0x3E#8, 0x64#8, 0x65#8, 0x67#8, 0xF0#8, 0x66#8, 0xF2#8, 0xF3#8] ∨
      (s.decodeMode = .mode64 ∧ 0x40#8 ≤ b ∧ b ≤ 0x4F#8)) →
    (s.decodeMode = .mode32 → 0x67#8 ∈ pre → memOperand? i.formOp = none) →
    15 < (pre ++ encode i).length →
    (∀ (n : Nat) (h : n < (pre ++ encode i).length), fetchStop s n = none ∧ fetchByte s n = (pre ++ encode i)[n]) →
    step s = takeException .gp s) ∧
  ∀ (s : State) (k : Nat), s.debugQuiet = true → (∀ n, n < k → fetchStop s n = none) →
    decode s.decodeMode s.cfg.b1RegNon512 ((List.range k).map (fetchByte s)) = .notInSpec →
    step s = .refused .notInSpec

/-- A fetch fault on any byte `k` that the instruction needs, the bytes before it being fetchable (R123 (b) and (c)), the
sixteenth and later ones included (R147 rows 1 and 2 before row 3): #GP(0) where the byte is not canonical or past the top
in 64-bit mode, or beyond the code limit outside it; else the fault that `Translate` answers, a #PF with its address in
`CR2` (R139), which for a page is the address of byte `k`. The place of `CR4.LA57` is log entry 17, and that the offset is
not reduced before the limit check log entry 44. -/
def Obligations.FetchFaults : Prop :=
  ∀ (s : State) (k : Nat), s.debugQuiet = true → (∀ n, n < k → fetchStop s n = none) →
    decode s.decodeMode s.cfg.b1RegNon512 ((List.range k).map (fetchByte s)) = .truncated →
    (s.is64 = true → (2 ^ 64 ≤ s.pc + k ∨ s.canonical (s.rip + BitVec.ofNat 64 k) = false) → step s = takeException .gp s) ∧
    (s.is64 = false → s.cs.limit.toNat < s.rip.toNat + k → step s = takeException .gp s) ∧
    ((if s.is64 then s.pc + k < 2 ^ 64 ∧ s.canonical (s.rip + BitVec.ofNat 64 k) = true
        else s.rip.toNat + k ≤ s.cs.limit.toNat) →
      (∀ c a, s.translate .fetch s.cpl (codeAddress s k) = .fault (.pf c) a →
        step s = takeException (.pf c) { s with cr2 := a } ∧
        (s.cfg.translation.rows = [] → a = codeAddress s k ∧ c.getLsbD 4 = true)) ∧
      (∀ e a, (∀ c, e ≠ .pf c) → s.translate .fetch s.cpl (codeAddress s k) = .fault e a → step s = takeException e s))

/-! ## The fifteen forms: completion, result and frame -/

/-- `VFMSUBADD132PD` under VEX (R105, R108), register and memory: it completes with `DEST * SRC3 + SRC2` in even lanes and
`DEST * SRC3 - SRC2` in odd ones, zero above, the flags ORed into `MXCSR`, and nothing else changed. -/
def Obligations.Vex132Completes : Prop :=
  ∀ (x : List LegacyPrefix) (d v : VexReg) (r : VexSrc3) (s : State),
    let res (o : FormOp) (j : Nat) :=
      mxcsrFma s (laneOf (s.readZmm o.dest) j) (src3Lane s o j) (laneOf (s.readZmm o.src2) j) j
    (let o := vexOp .f132 .v128 x d v r
     Completes s o → ∃ t, exec (.vfmsubadd132pdXmmVex x d v r) s = .next t ∧ CompletedAll s t o 2 (res o)) ∧
    (let o := vexOp .f132 .v256 x d v r
     Completes s o → ∃ t, exec (.vfmsubadd132pdYmmVex x d v r) s = .next t ∧ CompletedAll s t o 4 (res o))

/-- `VFMSUBADD213PD` under VEX (R106, R109): `SRC2 * DEST + SRC3` in even lanes, `SRC2 * DEST - SRC3` in odd ones. -/
def Obligations.Vex213Completes : Prop :=
  ∀ (x : List LegacyPrefix) (d v : VexReg) (r : VexSrc3) (s : State),
    let res (o : FormOp) (j : Nat) :=
      mxcsrFma s (laneOf (s.readZmm o.src2) j) (laneOf (s.readZmm o.dest) j) (src3Lane s o j) j
    (let o := vexOp .f213 .v128 x d v r
     Completes s o → ∃ t, exec (.vfmsubadd213pdXmmVex x d v r) s = .next t ∧ CompletedAll s t o 2 (res o)) ∧
    (let o := vexOp .f213 .v256 x d v r
     Completes s o → ∃ t, exec (.vfmsubadd213pdYmmVex x d v r) s = .next t ∧ CompletedAll s t o 4 (res o))

/-- `VFMSUBADD231PD` under VEX (R107, R110): `SRC2 * SRC3 + DEST` in even lanes, `SRC2 * SRC3 - DEST` in odd ones. -/
def Obligations.Vex231Completes : Prop :=
  ∀ (x : List LegacyPrefix) (d v : VexReg) (r : VexSrc3) (s : State),
    let res (o : FormOp) (j : Nat) :=
      mxcsrFma s (laneOf (s.readZmm o.src2) j) (src3Lane s o j) (laneOf (s.readZmm o.dest) j) j
    (let o := vexOp .f231 .v128 x d v r
     Completes s o → ∃ t, exec (.vfmsubadd231pdXmmVex x d v r) s = .next t ∧ CompletedAll s t o 2 (res o)) ∧
    (let o := vexOp .f231 .v256 x d v r
     Completes s o → ∃ t, exec (.vfmsubadd231pdYmmVex x d v r) s = .next t ∧ CompletedAll s t o 4 (res o))

/-- `VFMSUBADD132PD` under EVEX (R111, R114, R117), every operand kind and writemask: an active lane is
`DEST * SRC3 ± SRC2`, an inactive one is kept or zeroed (R99), zero above `VL` (R101), and nothing else changes. -/
def Obligations.Evex132Completes : Prop :=
  ∀ (x : List LegacyPrefix) (k : MaskSpec) (d v : VReg) (r : EvexSrc3) (s : State),
    let res (o : FormOp) (j : Nat) := formFma s o (laneOf (s.readZmm d) j) (src3Lane s o j) (laneOf (s.readZmm v) j) j
    (let o := evexOp .f132 .v128 x k d v r
     Completes s o → ∃ t, exec (.vfmsubadd132pdXmmEvex x k d v r) s = .next t ∧ CompletedMasked s t o k 2 (res o)) ∧
    (let o := evexOp .f132 .v256 x k d v r
     Completes s o → ∃ t, exec (.vfmsubadd132pdYmmEvex x k d v r) s = .next t ∧ CompletedMasked s t o k 4 (res o)) ∧
    (let o := evexOp .f132 .v512 x k d v r
     Completes s o → ∃ t, exec (.vfmsubadd132pdZmmEvex x k d v r) s = .next t ∧ CompletedMasked s t o k 8 (res o))

/-- `VFMSUBADD213PD` under EVEX (R112, R115, R118): an active lane is `SRC2 * DEST ± SRC3`. -/
def Obligations.Evex213Completes : Prop :=
  ∀ (x : List LegacyPrefix) (k : MaskSpec) (d v : VReg) (r : EvexSrc3) (s : State),
    let res (o : FormOp) (j : Nat) := formFma s o (laneOf (s.readZmm v) j) (laneOf (s.readZmm d) j) (src3Lane s o j) j
    (let o := evexOp .f213 .v128 x k d v r
     Completes s o → ∃ t, exec (.vfmsubadd213pdXmmEvex x k d v r) s = .next t ∧ CompletedMasked s t o k 2 (res o)) ∧
    (let o := evexOp .f213 .v256 x k d v r
     Completes s o → ∃ t, exec (.vfmsubadd213pdYmmEvex x k d v r) s = .next t ∧ CompletedMasked s t o k 4 (res o)) ∧
    (let o := evexOp .f213 .v512 x k d v r
     Completes s o → ∃ t, exec (.vfmsubadd213pdZmmEvex x k d v r) s = .next t ∧ CompletedMasked s t o k 8 (res o))

/-- `VFMSUBADD231PD` under EVEX (R113, R116, R119): an active lane is `SRC2 * SRC3 ± DEST`. -/
def Obligations.Evex231Completes : Prop :=
  ∀ (x : List LegacyPrefix) (k : MaskSpec) (d v : VReg) (r : EvexSrc3) (s : State),
    let res (o : FormOp) (j : Nat) := formFma s o (laneOf (s.readZmm v) j) (src3Lane s o j) (laneOf (s.readZmm d) j) j
    (let o := evexOp .f231 .v128 x k d v r
     Completes s o → ∃ t, exec (.vfmsubadd231pdXmmEvex x k d v r) s = .next t ∧ CompletedMasked s t o k 2 (res o)) ∧
    (let o := evexOp .f231 .v256 x k d v r
     Completes s o → ∃ t, exec (.vfmsubadd231pdYmmEvex x k d v r) s = .next t ∧ CompletedMasked s t o k 4 (res o)) ∧
    (let o := evexOp .f231 .v512 x k d v r
     Completes s o → ∃ t, exec (.vfmsubadd231pdZmmEvex x k d v r) s = .next t ∧ CompletedMasked s t o k 8 (res o))

/-- Embedded rounding (R137): T13 to T15 with a register third operand and `EVEX.b = 1` complete whatever the lanes detect
and whatever `MXCSR` masks, with no flag written; every active lane is the masked result under `EVEX.RC`. -/
def Obligations.EmbeddedRoundingNeverFaults : Prop :=
  ∀ (f : Form) (x : List LegacyPrefix) (k : MaskSpec) (d v r : VReg) (rc : RoundControl) (s : State),
    let i := evexInstr f .v512 x k d v (.regB r rc)
    s.cfg.saeUpdatesFlags = false → formEnabled s i.formOp = true → s.cr0TS = false →
    ∃ t, exec i s = .next t ∧ t.mxcsr = s.mxcsr ∧
      ∀ j, j < 8 → (k.aaa = 0#3 ∨ (s.readK k.aaa).getLsbD j = true) →
        let x1 := laneOf (s.readZmm d) j
        let x2 := laneOf (s.readZmm v) j
        let x3 := laneOf (s.readZmm r) j
        laneOf (t.readZmm d) j =
          match f with
          | .f132 => (embeddedFma rc s x1 x3 x2 j).1
          | .f213 => (embeddedFma rc s x2 x1 x3 j).1
          | .f231 => (embeddedFma rc s x2 x3 x1 j).1

/-- With the five exceptions masked, an enabled form whose operand can be read completes, records every raised flag and
advances the pc (R134). -/
def Obligations.MaskedExceptionsComplete : Prop :=
  ∀ (i : Instr) (s : State), formEnabled s i.formOp = true → s.cr0TS = false → operandStop s i.formOp = none →
    s.allMasked = true → suppressAll s i.formOp = false →
    ∃ t, exec i s = .next t ∧ t.mxcsr = s.mxcsr ||| (raisedFlags s i.formOp).setWidth 32 ∧ PcAdvances s t i.formOp.len

/-- After any of the 15 forms completes, the bits of the destination from `VL` up to `MAX_VL` are 0 (R17). -/
def Obligations.UpperBitsZeroed : Prop :=
  ∀ (i : Instr) (s t : State), exec i s = .next t →
    ∀ j, vecLanes i.formOp.vl ≤ j → j < maxLanes s.cfg → laneOf (t.readZmm i.formOp.dest) j = 0

/-- A completed form changes its destination, `MXCSR` and the instruction pointer alone, and in `MXCSR` it only sets flags
among `IE`, `DE`, `OE`, `UE`, `PE` (R104, R21, R22). -/
def Obligations.CompletedFormFrame : Prop :=
  ∀ (i : Instr) (s t : State), exec i s = .next t →
    Frame s t i.formOp.dest ∧ PcAdvances s t i.formOp.len ∧
    ∃ f : FpFlags, f &&& 0b000100#6 = 0 ∧ t.mxcsr = s.mxcsr ||| f.setWidth 32

/-- An inactive lane computes nothing (R100): two states whose vector registers agree in the active lanes give the same
outcome, the same flags and the same active lanes, whatever the inactive lanes hold. -/
def Obligations.InactiveLanesAreSilent : Prop :=
  ∀ (i : Instr) (s s' : State), s' = { s with zmm := s'.zmm } →
    (∀ r j, j < vecLanes i.formOp.vl → activeLane s i.formOp j = true →
      laneOf (s'.readZmm r) j = laneOf (s.readZmm r) j) →
    ((∃ t, exec i s = .next t) ↔ ∃ t', exec i s' = .next t') ∧
    (∀ t t', exec i s = .next t → exec i s' = .next t' → t'.mxcsr = t.mxcsr ∧
      ∀ j, j < vecLanes i.formOp.vl → activeLane s i.formOp j = true →
        laneOf (t'.readZmm i.formOp.dest) j = laneOf (t.readZmm i.formOp.dest) j) ∧
    (∀ e u, exec i s = .fault (.exception e u) → exec i s' = .fault (.exception e { u with zmm := s'.zmm }))

/-- Of the opmask registers a form reads only bits `KL-1:0` of its writemask, and it writes none (R19): states that agree
there have the same outcome. -/
def Obligations.OnlyLowMaskBitsMatter : Prop :=
  ∀ (i : Instr) (s s' : State), s' = { s with k := s'.k } →
    (∀ m, i.formOp.mask = some m → m.aaa ≠ 0#3 →
      ∀ j, j < vecLanes i.formOp.vl → (s'.readK m.aaa).getLsbD j = (s.readK m.aaa).getLsbD j) →
    (∀ t, exec i s = .next t → exec i s' = .next { t with k := s'.k }) ∧
    (∀ e u, exec i s = .fault (.exception e u) → exec i s' = .fault (.exception e { u with k := s'.k }))

/-- Lane `j` of the result depends on lane `j` of the registers alone (R103): states that agree there, memory being the
same, give the same lane `j`. -/
def Obligations.LanesAreIndependent : Prop :=
  ∀ (i : Instr) (s s' t t' : State) (j : Nat), s' = { s with zmm := s'.zmm } →
    (∀ r, laneOf (s'.readZmm r) j = laneOf (s.readZmm r) j) → exec i s = .next t → exec i s' = .next t' →
    laneOf (t'.readZmm i.formOp.dest) j = laneOf (t.readZmm i.formOp.dest) j

/-! ## Faults -/

/-- The state a fault leaves (R150): all as before but the flags of `MXCSR` after #XM or the #UD that stands for it, which
hold the old ones and only raised ones more, and `CR2` after #PF. -/
def Obligations.FaultLeavesState : Prop :=
  ∀ (i : Instr) (s u : State) (e : Exc), exec i s = .fault (.exception e u) →
    SameButFaultRecord s u ∧ ((∀ c, e ≠ .pf c) → u.cr2 = s.cr2) ∧ s.mxcsr &&& ~~~ u.mxcsr = 0 ∧
    u.mxcsr &&& ~~~ (s.mxcsr ||| (raisedFlags s i.formOp).setWidth 32) = 0 ∧
    (u.mxcsr ≠ s.mxcsr → (e = .xm ∨ e = .ud) ∧ ¬ Completes s i.formOp ∧
      formEnabled s i.formOp = true ∧ s.cr0TS = false ∧ operandStop s i.formOp = none)

/-- An unmasked exception in an active lane (R135), under the policy `two_phase` (R136): the form faults with #XM, vector
19, or with #UD, vector 6, where `CR4.OSXMMEXCPT = 0`, no lane is written and the pc stays; an unmasked pre-computation flag
leaves the pre-computation flags alone, else every raised flag is left. -/
def Obligations.UnmaskedExceptionFaults : Prop :=
  ∀ (i : Instr) (s : State), formEnabled s i.formOp = true → s.cr0TS = false → operandStop s i.formOp = none →
    suppressAll s i.formOp = false → s.cfg.flagPolicy = .twoPhase → s.unmasked (raisedFlags s i.formOp) ≠ 0 →
    let pre := raisedFlags s i.formOp &&& (flagIE ||| flagDE)
    let left := if s.unmasked pre ≠ 0 then pre else raisedFlags s i.formOp
    excVector .xm = 19 ∧ excErrorCode .xm = none ∧ excVector .ud = 6 ∧
    exec i s = .fault (.exception (if s.cr4OSXMMEXCPT then .xm else .ud) { s with mxcsr := s.mxcsr ||| left.setWidth 32 })

/-- Under the policy `any_subset` (U7, D20) the flags after the fault are the old ones and some of the raised ones, for every
value of the free choice. -/
def Obligations.AnySubsetFlagsBounded : Prop :=
  ∀ (i : Instr) (s : State), formEnabled s i.formOp = true → s.cr0TS = false → operandStop s i.formOp = none →
    suppressAll s i.formOp = false → s.cfg.flagPolicy = .anySubset → s.unmasked (raisedFlags s i.formOp) ≠ 0 →
    ∃ f : FpFlags, f &&& ~~~ raisedFlags s i.formOp = 0 ∧
      exec i s = .fault (.exception (if s.cr4OSXMMEXCPT then .xm else .ud)
        { s with mxcsr := s.mxcsr ||| f.setWidth 32, freeCount := s.freeCount + 1 })

/-- Each condition of R142 on the machine's state, alone, makes a form #UD whatever else holds (R142, R72, R147; the place of
`EFLAGS.VM` is log entry 16). -/
def Obligations.DisabledFormUndefined : Prop :=
  ∀ (i : Instr) (s : State),
    (s.cr0.getLsbD 0 = false ∨ s.rflags.getLsbD 17 = true ∨ s.cr4.getLsbD 18 = false ∨
      s.xcr0.extractLsb' 1 2 ≠ 0b11#2 ∨ (i.formOp.mask ≠ none ∧ s.xcr0.extractLsb' 5 3 ≠ 0b111#3) ∨
      (i.formOp.mask = none ∧ s.cfg.hasFMA = false) ∨ (i.formOp.mask ≠ none ∧ s.cfg.hasAVX512F = false) ∨
      (i.formOp.mask ≠ none ∧ i.formOp.vl ≠ .v512 ∧ s.cfg.hasAVX512VL = false)) →
    exec i s = .fault (.exception .ud s)

/-- With `CR0.TS = 1` any form is #NM, vector 7 without error code, before any operand is read; #UD is checked first
(R144). -/
def Obligations.TaskSwitchedFormsUnavailable : Prop :=
  excVector .nm = 7 ∧ excErrorCode .nm = none ∧
  ∀ (i : Instr) (s : State), s.cr0.getLsbD 3 = true →
    exec i s = .fault (.exception (if formEnabled s i.formOp then .nm else .ud) s)

/-- In 64-bit mode a needed byte at a non-canonical address, or past `FFFFFFFFFFFFFFFFH` (R121), is #SS(0) through `SS` and
#GP(0) through any other segment (R143 (a), R126), where no alignment check and no page fault competes (the order of the
three is doubtful, U8, log entry 20). -/
def Obligations.NonCanonicalOperandFaults : Prop :=
  ∀ (i : Instr) (s : State) (m : MemOperand) (bcst : Bool) (off : Nat), formEnabled s i.formOp = true →
    s.cr0TS = false → s.is64 = true → memOperand? i.formOp = some (m, bcst) → off ∈ neededBytes s i.formOp bcst →
    s.alignmentCheck = false → firstTranslationFault s .read (neededAddresses s i.formOp m bcst) = none →
    (s.canonical (linearByte s (operandSeg i.formOp m) (effectiveAddress s i.formOp m bcst) off) = false ∨
      2 ^ 64 ≤ (segBase s (operandSeg i.formOp m) + effectiveAddress s i.formOp m bcst).toNat + off) →
    exec i s = .fault (.exception (if operandSeg i.formOp m = .ss then .ss else .gp) s)

/-- Outside 64-bit mode a needed byte beyond the limit of the operand's segment is #SS(0) through `SS` and #GP(0) otherwise,
and a null selector is #GP(0) (R126); no alignment check and no page fault competing (U8, log entry 20). -/
def Obligations.SegmentLimitFaults : Prop :=
  ∀ (i : Instr) (s : State) (m : MemOperand) (bcst : Bool) (off : Nat), formEnabled s i.formOp = true →
    s.cr0TS = false → s.is64 = false → i.formOp.pfx.contains .addressSize = false →
    memOperand? i.formOp = some (m, bcst) → off ∈ neededBytes s i.formOp bcst →
    s.alignmentCheck = false → firstTranslationFault s .read (neededAddresses s i.formOp m bcst) = none →
    let g := s.readSeg (operandSeg i.formOp m)
    (nullSelector g = true → exec i s = .fault (.exception .gp s)) ∧
    (nullSelector g = false → g.limit.toNat < (effectiveAddress s i.formOp m bcst).toNat + off →
      exec i s = .fault (.exception (if operandSeg i.formOp m = .ss then .ss else .gp) s))

/-- The segment check passing (in 64-bit mode, every needed byte canonical) and no alignment check on, the lowest needed
byte that `Translate` faults on decides (R143 (c), R147; that it is the lowest is the model's choice, U13, log entry 19):
#PF, with the faulting address in `CR2` (R139), which for a page is that byte's. -/
def Obligations.OperandPageFault : Prop :=
  ∀ (i : Instr) (s : State) (m : MemOperand) (bcst : Bool) (before after : List Word64) (la a : Word64) (c : BitVec 32),
    formEnabled s i.formOp = true → s.cr0TS = false → s.alignmentCheck = false →
    memOperand? i.formOp = some (m, bcst) →
    (s.is64 = true → ∀ off ∈ neededBytes s i.formOp bcst,
      canonicalByte s (operandSeg i.formOp m) (effectiveAddress s i.formOp m bcst) off = true) →
    (s.is64 = false → i.formOp.pfx.contains .addressSize = false ∧
      let g := s.readSeg (operandSeg i.formOp m)
      nullSelector g = false ∧ g.readable = true ∧
        ∀ off ∈ neededBytes s i.formOp bcst, (effectiveAddress s i.formOp m bcst).toNat + off ≤ g.limit.toNat) →
    neededAddresses s i.formOp m bcst = before ++ la :: after →
    (∀ b ∈ before, ∃ pa, s.translate .read s.cpl b = .physical pa) → s.translate .read s.cpl la = .fault (.pf c) a →
    exec i s = .fault (.exception (.pf c) { s with cr2 := a }) ∧
    (s.cfg.translation.rows = [] → a = la ∧ c.getLsbD 1 = false)

/-- With alignment checking on (`CR0.AM`, `EFLAGS.AC`, `CPL = 3`), a misaligned broadcast operand of which some lane is needed
is #AC(0), where no segment check and no fault of `Translate` competes (U8, log entry 20); with it off, or for a full-vector
operand, #AC is never raised (R145, D7's default) unless `Translate` itself answers it. The address tested is the linear
one (log entry 32), and the place of `EFLAGS.AC` is log entry 16. -/
def Obligations.AlignmentCheckedOnBroadcastOnly : Prop :=
  ∀ (i : Instr) (s : State) (m : MemOperand) (bcst : Bool), formEnabled s i.formOp = true → s.cr0TS = false →
    (s.is64 = false → i.formOp.pfx.contains .addressSize = false) → s.cfg.acOnFullVector = false →
    memOperand? i.formOp = some (m, bcst) →
    (∀ la a, s.translate .read s.cpl la ≠ .fault .ac a) →
    let on := s.cr0.getLsbD 18 = true ∧ s.rflags.getLsbD 18 = true ∧ s.cpl = 3#2
    (bcst = true → on → neededBytes s i.formOp true ≠ [] →
      segmentFault s (operandSeg i.formOp m) (effectiveAddress s i.formOp m true) (neededBytes s i.formOp true) = none →
      firstTranslationFault s .read (neededAddresses s i.formOp m true) = none →
      (linearByte s (operandSeg i.formOp m) (effectiveAddress s i.formOp m true) 0).toNat % 8 ≠ 0 →
      exec i s = .fault (.exception .ac s)) ∧
    (bcst = false ∨ ¬ on → ∀ u, exec i s ≠ .fault (.exception .ac u))

/-- Fault suppression (R49): with no lane active, an enabled EVEX form with a memory operand completes whatever lies at its
address but a device, with no flag raised; under merging the lanes below `VL` stay. An operand of which a byte lies in a device
region is refused even so (R41). -/
def Obligations.FullyMaskedOperandNotRead : Prop :=
  ∀ (i : Instr) (s : State) (m : MemOperand) (bcst : Bool), formEnabled s i.formOp = true → s.cr0TS = false →
    s.is64 = true → s.cfg.faultSuppression = true → memOperand? i.formOp = some (m, bcst) →
    (∀ j, j < vecLanes i.formOp.vl → activeLane s i.formOp j = false) →
    ((∀ off, off < operandSize i.formOp bcst → ¬ InDevice s i.formOp m bcst off) →
      ∃ t, exec i s = .next t ∧ t.mxcsr = s.mxcsr ∧ PcAdvances s t i.formOp.len ∧
        ∀ j, j < vecLanes i.formOp.vl →
          laneOf (t.readZmm i.formOp.dest) j = if zeroing i.formOp then 0 else laneOf (s.readZmm i.formOp.dest) j) ∧
    (∀ off, off < operandSize i.formOp bcst → InDevice s i.formOp m bcst off →
      ∃ pa, exec i s = .refused (.deviceOperand pa) ∧ regionKind s.cfg.addressMap pa.toNat = .device)

/-- In 64-bit mode the operand read stops exactly when some needed byte is not canonical, not translated or not ordinary
memory, some byte of the operand, needed or not, lies in a device region, or the alignment check fails (R143, R145, R41,
R43); and in any mode, where the faults of R143 do not apply, a byte in a device region makes the stop a refusal (R41).
`AddressMap` and the order of the refusal are log entry 21, the linear address of the alignment check log entry 32, and that every byte is needed with suppression off log entry 33. -/
def Obligations.OperandReadableExactly : Prop :=
  (∀ (s : State) (o : FormOp) (m : MemOperand) (bcst : Bool), s.is64 = true → memOperand? o = some (m, bcst) →
    (operandStop s o = none ↔ Readable64 s o m bcst)) ∧
  ∀ (s : State) (o : FormOp) (m : MemOperand) (bcst : Bool) (off : Nat), memOperand? o = some (m, bcst) →
    (s.is64 = false → o.pfx.contains .addressSize = false) →
    segmentFault s (operandSeg o m) (effectiveAddress s o m bcst) (neededBytes s o bcst) = none →
    s.alignmentCheck = false → firstTranslationFault s .read (neededAddresses s o m bcst) = none →
    off < operandSize o bcst → InDevice s o m bcst off →
    ∃ pa, operandStop s o = some (.refused (.deviceOperand pa)) ∧ regionKind s.cfg.addressMap pa.toNat = .device

/-! ## Operands -/

/-- The effective address and the segment of a memory operand, from the bytes of the instruction (R124, R125, R126, R59, R60,
R121, R127): every row of the table of R124, with the index times `2^scale` and none for `X:index = 0100`, and no base for
`base = 101` with `mod = 00`; the sum modulo `2^64`, or `2^32` under `67H` and in `Mode32`, where `B` is ignored (R69); `SS`
for base 4 or 5, else `DS`, unless a prefix overrides it, the last one winning. A `disp8` under EVEX stands for `disp8 * N`,
`N` being 16, 32 or 64 for a full vector and 8 for a broadcast; under VEX it is not scaled (R61). -/
def Obligations.CompressedDisplacement : Prop :=
  (∀ (s : State) (p : B1RegNon512) (pfx : List LegacyPrefix) (f : Form) (b1 b2 modrm : Byte) (tail : List Byte),
    s.legacyMode = false → modrm.extractLsb' 6 2 ≠ 0b11#2 → 5 ≤ tail.length →
    (s.is64 = false → b1.extractLsb' 6 2 = 0b11#2 ∧ LegacyPrefix.addressSize ∉ pfx) →
    b1.extractLsb' 0 5 = 0b00010#5 → b2.extractLsb' 7 1 = 1#1 → b2.extractLsb' 0 2 = 0b01#2 →
    let b := if s.is64 then ~~~ b1.extractLsb' 5 1 else 0#1
    let bytes := pfx.map LegacyPrefix.byte ++ 0xC4#8 :: b1 :: b2 :: f.opcode :: modrm :: tail
    ∃ i m rest, decode s.decodeMode p bytes = .instr i rest ∧ memOperand? i.formOp = some (m, false) ∧
      let next := s.rip + BitVec.ofNat 64 (bytes.length - rest.length)
      effectiveAddress s i.formOp m false =
        truncatedAddress s pfx (addressRow s (~~~ b1.extractLsb' 6 1) b 1 next modrm tail) ∧
      (stackBased b modrm tail → operandSeg i.formOp m = (lastOverride pfx).getD .ss) ∧
      (¬ stackBased b modrm tail → operandSeg i.formOp m = (lastOverride pfx).getD .ds)) ∧
  (∀ (s : State) (p : B1RegNon512) (pfx : List LegacyPrefix) (f : Form) (p0 p1 p2 modrm : Byte) (tail : List Byte),
    s.legacyMode = false → modrm.extractLsb' 6 2 ≠ 0b11#2 → 5 ≤ tail.length →
    (s.is64 = false → p0.extractLsb' 6 2 = 0b11#2 ∧ LegacyPrefix.addressSize ∉ pfx ∧ p0.extractLsb' 4 1 = 1#1 ∧
      p1.extractLsb' 6 1 = 1#1 ∧ p2.extractLsb' 3 1 = 1#1) →
    p0.extractLsb' 0 4 = 0b0010#4 → p1.extractLsb' 7 1 = 1#1 → p1.extractLsb' 0 3 = 0b101#3 →
    p2.extractLsb' 5 2 ≠ 0b11#2 → ¬ (p2.extractLsb' 7 1 = 1#1 ∧ p2.extractLsb' 0 3 = 0#3) →
    let b := if s.is64 then ~~~ p0.extractLsb' 5 1 else 0#1
    let bcst := p2.getLsbD 4
    let n := if bcst then 8 else 16 * 2 ^ (p2.extractLsb' 5 2).toNat
    let bytes := pfx.map LegacyPrefix.byte ++ 0x62#8 :: p0 :: p1 :: p2 :: f.opcode :: modrm :: tail
    ∃ i m rest, decode s.decodeMode p bytes = .instr i rest ∧ memOperand? i.formOp = some (m, bcst) ∧
      let next := s.rip + BitVec.ofNat 64 (bytes.length - rest.length)
      effectiveAddress s i.formOp m bcst =
        truncatedAddress s pfx (addressRow s (~~~ p0.extractLsb' 6 1) b n next modrm tail) ∧
      (stackBased b modrm tail → operandSeg i.formOp m = (lastOverride pfx).getD .ss) ∧
      (¬ stackBased b modrm tail → operandSeg i.formOp m = (lastOverride pfx).getD .ds)) ∧
  ∀ (s : State) (f : Form) (x : List LegacyPrefix) (k : MaskSpec) (d v : VReg) (dv vv : VexReg) (b : GReg) (disp : BitVec 8),
    s.is64 = true → x.contains .addressSize = false →
    let m := MemOperand.base b (.d8 disp)
    let ea (vl : VecLen) (r : EvexSrc3) (bcst : Bool) := effectiveAddress s (evexOp f vl x k d v r) m bcst
    ea .v128 (.mem m) false = s.readGpr b + disp.signExtend 64 * 16 ∧
    ea .v256 (.mem m) false = s.readGpr b + disp.signExtend 64 * 32 ∧
    ea .v512 (.mem m) false = s.readGpr b + disp.signExtend 64 * 64 ∧
    (∀ vl, ea vl (.bcst m) true = s.readGpr b + disp.signExtend 64 * 8) ∧
    (∀ vl, effectiveAddress s (vexOp f vl x dv vv (.mem m)) m false = s.readGpr b + disp.signExtend 64)

/-- The base of RIP-relative addressing is the address of the next instruction, `pc + len`, and with `67H` the sum is
truncated to 32 bits and zero-extended (R125). -/
def Obligations.RipRelativeFromNextInstruction : Prop :=
  ∀ (s : State) (i : Instr) (disp : BitVec 32) (bcst : Bool), s.is64 = true →
    memOperand? i.formOp = some (.ripRel disp, bcst) →
    let next := s.rip + BitVec.ofNat 64 (encode i).length
    effectiveAddress s i.formOp (.ripRel disp) bcst =
      if i.formOp.pfx.contains .addressSize then ((next + disp.signExtend 64).setWidth 32).setWidth 64
      else next + disp.signExtend 64

/-- The lanes of the third operand (R92): of a register, its lanes; of a full-vector memory operand, lane `j` is the 8 bytes
at `EA + 8j`, the lowest address least significant (R33, R34); of a broadcast operand, the 8 bytes at `EA` in every lane
(R35). The linear address is segment base and address modulo `2^64`, only `FS` and `GS` having a base, or outside 64-bit mode
modulo `2^32`, every segment having one (R126). -/
def Obligations.MemoryLanesLittleEndian : Prop :=
  (∀ (s : State) (o : FormOp) (r : VReg) (rc : RoundControl) (j : Nat), o.src3 = .reg r ∨ o.src3 = .regB r rc →
    src3Lane s o j = laneOf (s.readZmm r) j) ∧
  (∀ (s : State) (g : Seg) (ea : Word64) (off : Nat),
    (s.is64 = true → linearByte s g ea off = segBase s g + ea + BitVec.ofNat 64 off ∧
      segBase s g = match g with
        | .fs => s.fs.base
        | .gs => s.gs.base
        | _ => 0) ∧
    (s.is64 = false →
      (linearByte s g ea off).toNat = ((s.readSeg g).base.toNat + ea.toNat + off) % 2 ^ 32)) ∧
  ∀ (s : State) (o : FormOp) (m : MemOperand) (j n : Nat), n < 8 →
    (o.src3 = .mem m → (src3Lane s o j).extractLsb' (8 * n) 8 =
      s.readLinear .read (linearByte s (operandSeg o m) (effectiveAddress s o m false) (8 * j + n))) ∧
    (o.src3 = .bcst m → (src3Lane s o j).extractLsb' (8 * n) 8 =
      s.readLinear .read (linearByte s (operandSeg o m) (effectiveAddress s o m true) n))

/-! ## The lane arithmetic -/

/-- With a NaN operand the result is the first NaN in role order, quieted, its sign kept in odd lanes too; `IE` exactly for a
signaling operand (R94). -/
def Obligations.NaNOperandPropagates : Prop :=
  ∀ (rc : RoundControl) (daz ftz um om : Bool) (a b c : Lane) (neg : Bool),
    (fpNaN a || fpNaN b || fpNaN c) = true →
    fma64 false rc daz ftz um om a b c neg =
      ((if fpNaN a then a else if fpNaN b then b else c) ||| 0x0008000000000000#64,
       if fpSNaN a || fpSNaN b || fpSNaN c then flagIE else 0)

/-- Infinities without a NaN (R93), the addend's sign being inverted in an odd lane: `inf * 0` and `inf - inf` are invalid,
with the default NaN and `IE` alone; else an infinite product, and then an infinite addend, is the result, exact. -/
def Obligations.InfinityOperands : Prop :=
  ∀ (izq : Bool) (rc : RoundControl) (daz ftz um om : Bool) (a b c : Lane) (neg : Bool),
    (fpNaN a || fpNaN b || fpNaN c) = false →
    let zero (v : Lane) : Bool := fpZero v || (daz && fpDenormal v)
    let sp := fpSign a != fpSign b
    let sc := fpSign c != neg
    let de : FpFlags := if !daz && (fpDenormal a || fpDenormal b || fpDenormal c) then flagDE else 0
    let bad := (fpInf a && zero b) || (zero a && fpInf b)
    let r := fma64 izq rc daz ftz um om a b c neg
    (bad = true → r = (0xFFF8000000000000#64, flagIE)) ∧
    (bad = false → (fpInf a || fpInf b) = true → fpInf c = true → sp ≠ sc → r = (0xFFF8000000000000#64, flagIE)) ∧
    (bad = false → (fpInf a || fpInf b) = true → (fpInf c = false ∨ sp = sc) →
      r = (if sp then 0xFFF0000000000000#64 else 0x7FF0000000000000#64, de)) ∧
    ((fpInf a || fpInf b) = false → fpInf c = true →
      r = (if sc then 0xFFF0000000000000#64 else 0x7FF0000000000000#64, de))

/-- The sign of a zero sum (R91): two zero terms of one sign keep it, else `+0`, and `-0` under round down; no flag but
`DE`. -/
def Obligations.ZeroSumSign : Prop :=
  ∀ (izq : Bool) (rc : RoundControl) (ftz um om : Bool) (a b c : Lane) (neg : Bool),
    fpFinite a = true → fpFinite b = true → fpFinite c = true → exactFma a b c neg = 0 →
    let sp := fpSign a != fpSign b
    let sc := fpSign c != neg
    let minus := if fpValue a * fpValue b = 0 ∧ sp = sc then sp else decide (rc = 0b01#2)
    fma64 izq rc false ftz um om a b c neg =
      (if minus then 0x8000000000000000#64 else 0,
       if fpDenormal a || fpDenormal b || fpDenormal c then flagDE else 0)

/-- Round to nearest (R87, R90): where nothing overflows or is flushed, and a tiny result is masked (an unmasked one has no
result, R97, log entry 31), no representable value is nearer the exact sum than
the result, and of two equally near the result is the one whose bit 0 is 0. -/
def Obligations.RoundsToNearestEven : Prop :=
  ∀ (izq um om : Bool) (a b c : Lane) (neg : Bool), fpFinite a = true → fpFinite b = true → fpFinite c = true →
    ¬ Overflows 0b00#2 (exactFma a b c neg) → (um = true ∨ ¬ Tiny 0b00#2 (exactFma a b c neg)) →
    let s := exactFma a b c neg
    let r := (fma64 izq 0b00#2 false false um om a b c neg).1
    fpFinite r = true ∧ (s ≠ 0 → fpSign r = decide (s < 0)) ∧
    ∀ w : Lane, fpFinite w = true → |fpValue r - s| ≤ |fpValue w - s| ∧
      (fpValue w ≠ fpValue r → |fpValue w - s| = |fpValue r - s| → r.getLsbD 0 = false)

/-- Directed rounding (R87, R90): round down gives the largest representable value not above the exact sum, round up the
smallest not below it, and round toward zero the one of largest magnitude not beyond it, with its sign; a tiny result being
masked (an unmasked one has no result, R97, log entry 31). -/
def Obligations.RoundsInDirection : Prop :=
  ∀ (izq um om : Bool) (rc : RoundControl) (a b c : Lane) (neg : Bool), fpFinite a = true → fpFinite b = true →
    fpFinite c = true → ¬ Overflows rc (exactFma a b c neg) → (um = true ∨ ¬ Tiny rc (exactFma a b c neg)) →
    let s := exactFma a b c neg
    let r := (fma64 izq rc false false um om a b c neg).1
    (rc = 0b01#2 → fpFinite r = true ∧ fpValue r ≤ s ∧ ∀ w, fpFinite w = true → fpValue w ≤ s → fpValue w ≤ fpValue r) ∧
    (rc = 0b10#2 → fpFinite r = true ∧ s ≤ fpValue r ∧ ∀ w, fpFinite w = true → s ≤ fpValue w → fpValue r ≤ fpValue w) ∧
    (rc = 0b11#2 → fpFinite r = true ∧ |fpValue r| ≤ |s| ∧ (s ≠ 0 → fpSign r = decide (s < 0)) ∧
      ∀ w, fpFinite w = true → |fpValue w| ≤ |s| → |fpValue w| ≤ |fpValue r|)

/-- Overflow (R96): where the rounded sum passes `MAXF`, masked overflow gives infinity or `MAXF` by the rounding control and
the sign, with `OE` and `PE`; unmasked overflow raises `OE` without `PE`; and nothing else raises `OE`. `Overflows` is the
model's closed form of the test (log entry 40). -/
def Obligations.OverflowResponse : Prop :=
  ∀ (izq : Bool) (rc : RoundControl) (ftz um om : Bool) (a b c : Lane) (neg : Bool),
    fpFinite a = true → fpFinite b = true → fpFinite c = true →
    let s := exactFma a b c neg
    let r := fma64 izq rc false ftz um om a b c neg
    let de : FpFlags := if fpDenormal a || fpDenormal b || fpDenormal c then flagDE else 0
    (Overflows rc s → r.2 = de ||| flagOE ||| (if om then flagPE else 0)) ∧
    (Overflows rc s → om = true → r.1 =
      if 0 < s then (if rc = 0b00#2 ∨ rc = 0b10#2 then 0x7FF0000000000000#64 else 0x7FEFFFFFFFFFFFFF#64)
      else (if rc = 0b00#2 ∨ rc = 0b01#2 then 0xFFF0000000000000#64 else 0xFFEFFFFFFFFFFFFF#64)) ∧
    (¬ Overflows rc s → r.2 &&& flagOE = 0)

/-- Underflow (R97), tininess being detected after rounding: masked, `UE` with `PE` exactly for a tiny inexact result, or with
`FTZ` for every tiny one, which becomes the zero of the sum's sign; unmasked, `UE` without `PE` for every tiny result.
`Tiny` is the model's closed form of the test (log entry 40). -/
def Obligations.UnderflowResponse : Prop :=
  ∀ (izq : Bool) (rc : RoundControl) (ftz um om : Bool) (a b c : Lane) (neg : Bool),
    fpFinite a = true → fpFinite b = true → fpFinite c = true →
    let s := exactFma a b c neg
    let r := fma64 izq rc false ftz um om a b c neg
    (Tiny rc s → um = true → ftz = true →
      r.1 = (if s < 0 then 0x8000000000000000#64 else 0) ∧ r.2 &&& 0b110000#6 = flagUE ||| flagPE) ∧
    (Tiny rc s → um = true → ftz = false →
      r.2 &&& 0b110000#6 = if fpValue r.1 = s then 0 else flagUE ||| flagPE) ∧
    (Tiny rc s → um = false → r.2 &&& 0b110000#6 = flagUE) ∧
    (¬ Tiny rc s → r.2 &&& flagUE = 0)

/-- Precision (R98): with overflow and underflow masked and `FTZ` off, a finite result raises `PE` exactly when it differs
from the exact sum. -/
def Obligations.PrecisionFlagExact : Prop :=
  ∀ (izq : Bool) (rc : RoundControl) (a b c : Lane) (neg : Bool), fpFinite a = true → fpFinite b = true →
    fpFinite c = true →
    let r := fma64 izq rc false false true true a b c neg
    fpFinite r.1 = true → (r.2 &&& flagPE ≠ 0 ↔ fpValue r.1 ≠ exactFma a b c neg)

/-- Denormal operands (R95), without a NaN: under `DAZ` each counts as the zero of its sign and `DE` is never raised; without
it `DE` is raised exactly when an operand is denormal and the operation is not invalid. -/
def Obligations.DenormalOperands : Prop :=
  ∀ (izq : Bool) (rc : RoundControl) (ftz um om : Bool) (a b c : Lane) (neg : Bool),
    (fpNaN a || fpNaN b || fpNaN c) = false →
    let flush (v : Lane) : Lane := if fpDenormal v then (if fpSign v then 0x8000000000000000#64 else 0) else v
    fma64 izq rc true ftz um om a b c neg = fma64 izq rc false ftz um om (flush a) (flush b) (flush c) neg ∧
    (fma64 izq rc true ftz um om a b c neg).2 &&& flagDE = 0 ∧
    let r := fma64 izq rc false ftz um om a b c neg
    (r.2 &&& flagDE ≠ 0 ↔ (fpDenormal a || fpDenormal b || fpDenormal c) = true ∧ r.2 &&& flagIE = 0)

/-! ## Exceptions taken, debug, reset -/

/-- An exception delivered through a gate (R149): the handler's `CS:RIP`; `TF`, `NT`, `RF`, `VM` cleared and `IF` too by an
interrupt gate, every other flag kept; `RSP` below the stack the gate chooses (its IST stack, on a privilege change `RSP0`,
else the current stack, aligned down to 16 bytes) by the frame of 40 bytes, 48 with an error code; every byte of memory
outside those the frame occupies kept; and no other register changed, `SS` but on a privilege change. The gate as a
parameter and what `SS` then holds are the model's choices (log entries 12, 13), and the places of the flags (log entry 16) and
the 8 bytes of the error code (log entry 48) are the family's. -/
def Obligations.DeliveredExceptionEntersHandler : Prop :=
  ∀ (s t : State) (e : Exc), takeException e s = .next t →
    ∃ g, s.gateFor e = some g ∧ t.cs = g.cs ∧ t.rip = g.rip ∧ t.ripPast = false ∧
      (∀ n, t.rflags.getLsbD n =
        (s.rflags.getLsbD n && !(n == 8 || n == 14 || n == 16 || n == 17 || (n == 9 && g.interrupt)))) ∧
      (let cpl := g.cs.selector.extractLsb' 0 2
       let stack := s.deliveryStack g
       let size : Nat := if (excErrorCode e).isSome then 48 else 40
       (g.ist = 0#3 → cpl = s.cpl → stack = s.readGpr 4#4 &&& ~~~ 15#64) ∧
       (g.ist = 0#3 → cpl ≠ s.cpl → stack = s.rsp0 &&& ~~~ 15#64) ∧
       (∀ n : Fin 7, g.ist.toNat = n.val + 1 → stack = s.ist[n] &&& ~~~ 15#64) ∧
       t.readGpr 4#4 = stack - BitVec.ofNat 64 size ∧
       (∀ a : Nat, (∀ n, n < size → ∀ pa : Word64,
          s.translate .read cpl (stack - BitVec.ofNat 64 size + BitVec.ofNat 64 n) = .physical pa → pa.toNat ≠ a) →
        memRead t.mem a = memRead s.mem a) ∧
       (cpl = s.cpl → t.ss = s.ss)) ∧
      (∀ r, r ≠ 4#4 → t.readGpr r = s.readGpr r) ∧
      t.zmm = s.zmm ∧ t.k = s.k ∧ t.mxcsr = s.mxcsr ∧ t.cr2 = s.cr2 ∧ t.cr0 = s.cr0 ∧ t.cr4 = s.cr4 ∧ t.xcr0 = s.xcr0 ∧
      t.es = s.es ∧ t.ds = s.ds ∧ t.fs = s.fs ∧ t.gs = s.gs ∧ t.dr6 = s.dr6 ∧ t.dr7 = s.dr7

/-- The frame an exception delivered through a gate leaves in memory (R149): below the stack the gate chooses, `SS`, `RSP`,
`RFLAGS`, `CS`, `RIP` and, for a vector that has one, the error code, 8 bytes each, the first one highest and each
little-endian; every byte of it at an address the handler's level can access, and there as pushed where no two of its
addresses are one physical byte. The rights of the pushes are the model's choice (log
entry 14), and so are the 8 bytes of the error code and the byte order (log entry 48). -/
def Obligations.DeliveredFrameInMemory : Prop :=
  ∀ (s t : State) (e : Exc) (g : Gate), Memory.wf s.mem = true → takeException e s = .next t → s.gateFor e = some g →
    let cpl := g.cs.selector.extractLsb' 0 2
    let frame : List Word64 :=
      [s.ss.selector.setWidth 64, s.readGpr 4#4, s.rflags, s.cs.selector.setWidth 64, s.rip] ++
        (excErrorCode e).toList.map (·.setWidth 64)
    let at' (n i : Nat) : Word64 := s.deliveryStack g - BitVec.ofNat 64 (8 * (n + 1)) + BitVec.ofNat 64 i
    (∀ n i, n < frame.length → i < 8 → s.canonical (at' n i) = true ∧
      ∃ pa, s.translate .read cpl (at' n i) = .physical pa ∧ regionKind s.cfg.addressMap pa.toNat = .ordinary) ∧
    ((∀ n i n' i' pa, n < frame.length → n' < frame.length → i < 8 → i' < 8 →
        s.translate .read cpl (at' n i) = .physical pa → s.translate .read cpl (at' n' i') = .physical pa →
        n = n' ∧ i = i') →
      ∀ (n i : Nat) (pa : Word64) (h : n < frame.length), i < 8 → s.translate .read cpl (at' n i) = .physical pa →
        memRead t.mem pa.toNat = frame[n].extractLsb' (8 * i) 8)

/-- Taking an exception without an error code and returning from it restores `RIP`, `RFLAGS`, every general register and the
selectors of `CS` and `SS` (R149, R151), where linear addresses are physical. Gates and the return as an operation are the
model's (log entries 12, 15). -/
def Obligations.ExceptionReturnRestores : Prop :=
  ∀ (s t : State) (e : Exc), excErrorCode e = none → s.cfg.translation = { rows := [], pages := [], unlisted := .identity } →
    Memory.wf s.mem = true → takeException e s = .next t →
    ∃ u, t.returnFromException = some u ∧ u.rip = s.rip ∧ u.rflags = s.rflags ∧ u.gpr = s.gpr ∧
      u.cs.selector = s.cs.selector ∧ u.ss.selector = s.ss.selector ∧ u.zmm = s.zmm ∧ u.mxcsr = s.mxcsr

/-- Debug exceptions (R157): an armed instruction breakpoint on the instruction's address is #DB before it runs; a completed
form is followed by #DB from its next state when an armed breakpoint of the read/write kind covers a byte of its memory
operand, marked in `DR6`, or when `EFLAGS.TF` was 1, with `DR6.BS` set; and by nothing when neither holds. The places of
the bits, and what a breakpoint covers, are the model's (log entries 10, 16, 34). -/
def Obligations.DebugExceptions : Prop :=
  ∀ s : State,
    (∀ n : Fin 4, s.drEnabled n = true → s.drKind n = 0b00#2 → s.ripPast = false → s.drAddress n = codeAddress s 0 →
      step s = takeException .db { s with dr6 := s.dr6 ||| codeHits s } ∧ (codeHits s).getLsbD n = true) ∧
    (∀ i t, codeHits s = 0 → fetch s = .instr i → exec i s = .next t →
      let hits := dataHits s i.formOp
      (∀ n : Fin 4, hits.getLsbD n = true ↔ s.drEnabled n = true ∧ s.drKind n = 0b11#2 ∧
        ∃ m bcst, memOperand? i.formOp = some (m, bcst) ∧
          ∃ la ∈ neededAddresses s i.formOp m bcst, s.drCovers n la = true) ∧
      (hits ≠ 0 → s.rflags.getLsbD 8 = false → step s = takeException .db { t with dr6 := t.dr6 ||| hits }) ∧
      (s.rflags.getLsbD 8 = true → step s = takeException .db { t with dr6 := t.dr6 ||| hits ||| 0x4000 }) ∧
      (hits = 0 → s.rflags.getLsbD 8 = false → step s = .next t))

/-- After RESET (R32, R160): the values the spec gives (the general registers but `RDX`, whose signature it does not name),
the first fetch at `FFFFFFF0H`, real-address mode at `CPL 0` with interrupts off, and every one of the 15 forms an undefined
opcode (the place of `EFLAGS.IF` is log entry 16). -/
def Obligations.ResetState : Prop :=
  let s := State.reset
  (∀ r, s.readZmm r = Vector.replicate 8 0) ∧ (∀ r, s.readK r = 0) ∧ (∀ r, r ≠ 2#4 → s.readGpr r = 0) ∧ s.mxcsr = 0x1F80 ∧ s.rip = 0xFFF0 ∧ s.rflags = 2 ∧
  codeAddress s 0 = 0xFFFFFFF0 ∧ s.cs.selector = 0xF000 ∧ s.cs.base = 0xFFFF0000 ∧ s.cs.limit = 0xFFFF ∧
  (∀ g, g ≠ Seg.cs → (s.readSeg g).selector = 0 ∧ (s.readSeg g).base = 0 ∧ (s.readSeg g).limit = 0xFFFF) ∧
  s.cr0 = 0x60000010 ∧ s.cr4 = 0 ∧ s.xcr0 = 1 ∧ s.cpl = 0 ∧ s.rflags.getLsbD 9 = false ∧ s.legacyMode = true ∧
  ∀ i : Instr, exec i s = .fault (.exception .ud s)

/-- The #PF error code (R138) for a page that `Translate` lists (log entry 18), no row of it answering: `P`, `U/S`, `RSVD`,
`I/D`, `PK`, `SGX` in their places, `W/R` and the rest 0. -/
def Obligations.PageFaultErrorCodeBits : Prop :=
  ∀ (s : State) (p : Page) (acc : Access) (cpl : BitVec 2) (la a : Word64) (c : BitVec 32), s.cr0PG = true →
    lookupRow s.cfg.translation.rows acc cpl la = none →
    lookupPage s.cfg.translation.pages (la.extractLsb' 12 52) = some p → s.translate acc cpl la = .fault (.pf c) a →
    a = la ∧ c.getLsbD 0 = p.present ∧ c.getLsbD 1 = false ∧ c.getLsbD 2 = decide (cpl = 3#2) ∧
    c.getLsbD 4 = decide (acc = .fetch) ∧ (c.getLsbD 3 = true → p.reserved = true) ∧
    (c.getLsbD 5 = true → p.keyDenied = true ∧ acc = .read) ∧ (c.getLsbD 15 = true → p.sgxDenied = true) ∧
    c &&& 0xFFFF7FC0#32 = 0

/-! ## Launch and the end of a run -/

/-- R161 and R162: launching a state and placing the encoding of a form gives the premises of R162 for it, whatever the state
was but for reserved `MXCSR` bits, an absent CPUID flag and memory that is not there; and where the premises hold and the
operand can be read and nothing unmasked is raised, the step is the form completing. That `pc` becomes 0 where it was not
canonical is the model's choice (log entry 8). -/
def Obligations.LaunchedFormRuns : Prop :=
  (∀ (s : State) (i : Instr), i.wf .mode64 s.cfg.b1RegNon512 = true → cpuidOk s.cfg i.formOp = true →
    s.mxcsr.extractLsb' 16 16 = 0#16 → Memory.wf s.mem = true →
    s.cfg.translation = { rows := [], pages := [], unlisted := .identity } →
    (∀ n, n < 15 → regionKind s.cfg.addressMap (codeAddress s.launched n).toNat = .ordinary) →
    LaunchPremises (storeCode s.launched 0 (encode i)) i) ∧
  (∀ (s : State) (i : Instr), LaunchPremises s i → Completes s i.formOp → ∃ t, exec i s = .next t ∧ step s = .next t)

/-- R168 (c), D26: the run of a finite program whose bytes lie at the instruction pointer, nothing being armed, is over when
`pc` reaches the byte after the last, in the state its instructions leave one after another; and a run that is over has `pc`
there. -/
def Obligations.ProgramRunEnds : Prop :=
  (∀ (p : List Instr) (s t : State), s.is64 = true → s.debugQuiet = true →
    (∀ i ∈ p, i.wf s.decodeMode s.cfg.b1RegNon512 = true) →
    (∀ (n : Nat) (h : n < (programBytes p).length), fetchStop s n = none ∧ fetchByte s n = (programBytes p)[n]) →
    execAll p s = .next t → runProgram p p.length s = .finished t) ∧
  (∀ (p : List Instr) (n : Nat) (s t : State), runProgram p n s = .finished t → t.pc = s.programEnd p)
end

