-- ==== Sys2Proof/Laws/State.lean ====
section
/-! SUPPORT. One lemma per field per update of the state, so that no proof unfolds a record update; and reading a
register after writing one. -/

namespace Sys2Proof.Machine

/-! ## Writing a vector register -/

@[simp] theorem State.writeZmm_cfg (s : State) (r : VReg) (v : Zmm) : (s.writeZmm r v).cfg = s.cfg := rfl
@[simp] theorem State.writeZmm_mode (s : State) (r : VReg) (v : Zmm) : (s.writeZmm r v).mode = s.mode := rfl
@[simp] theorem State.writeZmm_zmm (s : State) (r : VReg) (v : Zmm) : (s.writeZmm r v).zmm = s.zmm.set r.toNat v (by omega) := rfl
@[simp] theorem State.writeZmm_k (s : State) (r : VReg) (v : Zmm) : (s.writeZmm r v).k = s.k := rfl
@[simp] theorem State.writeZmm_mxcsr (s : State) (r : VReg) (v : Zmm) : (s.writeZmm r v).mxcsr = s.mxcsr := rfl
@[simp] theorem State.writeZmm_rip (s : State) (r : VReg) (v : Zmm) : (s.writeZmm r v).rip = s.rip := rfl
@[simp] theorem State.writeZmm_ripPast (s : State) (r : VReg) (v : Zmm) : (s.writeZmm r v).ripPast = s.ripPast := rfl
@[simp] theorem State.writeZmm_rflags (s : State) (r : VReg) (v : Zmm) : (s.writeZmm r v).rflags = s.rflags := rfl
@[simp] theorem State.writeZmm_gpr (s : State) (r : VReg) (v : Zmm) : (s.writeZmm r v).gpr = s.gpr := rfl
@[simp] theorem State.writeZmm_es (s : State) (r : VReg) (v : Zmm) : (s.writeZmm r v).es = s.es := rfl
@[simp] theorem State.writeZmm_cs (s : State) (r : VReg) (v : Zmm) : (s.writeZmm r v).cs = s.cs := rfl
@[simp] theorem State.writeZmm_ss (s : State) (r : VReg) (v : Zmm) : (s.writeZmm r v).ss = s.ss := rfl
@[simp] theorem State.writeZmm_ds (s : State) (r : VReg) (v : Zmm) : (s.writeZmm r v).ds = s.ds := rfl
@[simp] theorem State.writeZmm_fs (s : State) (r : VReg) (v : Zmm) : (s.writeZmm r v).fs = s.fs := rfl
@[simp] theorem State.writeZmm_gs (s : State) (r : VReg) (v : Zmm) : (s.writeZmm r v).gs = s.gs := rfl
@[simp] theorem State.writeZmm_cr0 (s : State) (r : VReg) (v : Zmm) : (s.writeZmm r v).cr0 = s.cr0 := rfl
@[simp] theorem State.writeZmm_cr2 (s : State) (r : VReg) (v : Zmm) : (s.writeZmm r v).cr2 = s.cr2 := rfl
@[simp] theorem State.writeZmm_cr4 (s : State) (r : VReg) (v : Zmm) : (s.writeZmm r v).cr4 = s.cr4 := rfl
@[simp] theorem State.writeZmm_xcr0 (s : State) (r : VReg) (v : Zmm) : (s.writeZmm r v).xcr0 = s.xcr0 := rfl
@[simp] theorem State.writeZmm_dr0 (s : State) (r : VReg) (v : Zmm) : (s.writeZmm r v).dr0 = s.dr0 := rfl
@[simp] theorem State.writeZmm_dr1 (s : State) (r : VReg) (v : Zmm) : (s.writeZmm r v).dr1 = s.dr1 := rfl
@[simp] theorem State.writeZmm_dr2 (s : State) (r : VReg) (v : Zmm) : (s.writeZmm r v).dr2 = s.dr2 := rfl
@[simp] theorem State.writeZmm_dr3 (s : State) (r : VReg) (v : Zmm) : (s.writeZmm r v).dr3 = s.dr3 := rfl
@[simp] theorem State.writeZmm_dr6 (s : State) (r : VReg) (v : Zmm) : (s.writeZmm r v).dr6 = s.dr6 := rfl
@[simp] theorem State.writeZmm_dr7 (s : State) (r : VReg) (v : Zmm) : (s.writeZmm r v).dr7 = s.dr7 := rfl
@[simp] theorem State.writeZmm_idtrBase (s : State) (r : VReg) (v : Zmm) : (s.writeZmm r v).idtrBase = s.idtrBase := rfl
@[simp] theorem State.writeZmm_gates (s : State) (r : VReg) (v : Zmm) : (s.writeZmm r v).gates = s.gates := rfl
@[simp] theorem State.writeZmm_rsp0 (s : State) (r : VReg) (v : Zmm) : (s.writeZmm r v).rsp0 = s.rsp0 := rfl
@[simp] theorem State.writeZmm_ist (s : State) (r : VReg) (v : Zmm) : (s.writeZmm r v).ist = s.ist := rfl
@[simp] theorem State.writeZmm_mem (s : State) (r : VReg) (v : Zmm) : (s.writeZmm r v).mem = s.mem := rfl
@[simp] theorem State.writeZmm_freeCount (s : State) (r : VReg) (v : Zmm) : (s.writeZmm r v).freeCount = s.freeCount := rfl

/-! ## Raising MXCSR flags -/

@[simp] theorem State.orFlags_cfg (s : State) (f : FpFlags) : (s.orFlags f).cfg = s.cfg := rfl
@[simp] theorem State.orFlags_mode (s : State) (f : FpFlags) : (s.orFlags f).mode = s.mode := rfl
@[simp] theorem State.orFlags_zmm (s : State) (f : FpFlags) : (s.orFlags f).zmm = s.zmm := rfl
@[simp] theorem State.orFlags_k (s : State) (f : FpFlags) : (s.orFlags f).k = s.k := rfl
@[simp] theorem State.orFlags_mxcsr (s : State) (f : FpFlags) : (s.orFlags f).mxcsr = s.mxcsr ||| f.setWidth 32 := rfl
@[simp] theorem State.orFlags_rip (s : State) (f : FpFlags) : (s.orFlags f).rip = s.rip := rfl
@[simp] theorem State.orFlags_ripPast (s : State) (f : FpFlags) : (s.orFlags f).ripPast = s.ripPast := rfl
@[simp] theorem State.orFlags_rflags (s : State) (f : FpFlags) : (s.orFlags f).rflags = s.rflags := rfl
@[simp] theorem State.orFlags_gpr (s : State) (f : FpFlags) : (s.orFlags f).gpr = s.gpr := rfl
@[simp] theorem State.orFlags_es (s : State) (f : FpFlags) : (s.orFlags f).es = s.es := rfl
@[simp] theorem State.orFlags_cs (s : State) (f : FpFlags) : (s.orFlags f).cs = s.cs := rfl
@[simp] theorem State.orFlags_ss (s : State) (f : FpFlags) : (s.orFlags f).ss = s.ss := rfl
@[simp] theorem State.orFlags_ds (s : State) (f : FpFlags) : (s.orFlags f).ds = s.ds := rfl
@[simp] theorem State.orFlags_fs (s : State) (f : FpFlags) : (s.orFlags f).fs = s.fs := rfl
@[simp] theorem State.orFlags_gs (s : State) (f : FpFlags) : (s.orFlags f).gs = s.gs := rfl
@[simp] theorem State.orFlags_cr0 (s : State) (f : FpFlags) : (s.orFlags f).cr0 = s.cr0 := rfl
@[simp] theorem State.orFlags_cr2 (s : State) (f : FpFlags) : (s.orFlags f).cr2 = s.cr2 := rfl
@[simp] theorem State.orFlags_cr4 (s : State) (f : FpFlags) : (s.orFlags f).cr4 = s.cr4 := rfl
@[simp] theorem State.orFlags_xcr0 (s : State) (f : FpFlags) : (s.orFlags f).xcr0 = s.xcr0 := rfl
@[simp] theorem State.orFlags_dr0 (s : State) (f : FpFlags) : (s.orFlags f).dr0 = s.dr0 := rfl
@[simp] theorem State.orFlags_dr1 (s : State) (f : FpFlags) : (s.orFlags f).dr1 = s.dr1 := rfl
@[simp] theorem State.orFlags_dr2 (s : State) (f : FpFlags) : (s.orFlags f).dr2 = s.dr2 := rfl
@[simp] theorem State.orFlags_dr3 (s : State) (f : FpFlags) : (s.orFlags f).dr3 = s.dr3 := rfl
@[simp] theorem State.orFlags_dr6 (s : State) (f : FpFlags) : (s.orFlags f).dr6 = s.dr6 := rfl
@[simp] theorem State.orFlags_dr7 (s : State) (f : FpFlags) : (s.orFlags f).dr7 = s.dr7 := rfl
@[simp] theorem State.orFlags_idtrBase (s : State) (f : FpFlags) : (s.orFlags f).idtrBase = s.idtrBase := rfl
@[simp] theorem State.orFlags_gates (s : State) (f : FpFlags) : (s.orFlags f).gates = s.gates := rfl
@[simp] theorem State.orFlags_rsp0 (s : State) (f : FpFlags) : (s.orFlags f).rsp0 = s.rsp0 := rfl
@[simp] theorem State.orFlags_ist (s : State) (f : FpFlags) : (s.orFlags f).ist = s.ist := rfl
@[simp] theorem State.orFlags_mem (s : State) (f : FpFlags) : (s.orFlags f).mem = s.mem := rfl
@[simp] theorem State.orFlags_freeCount (s : State) (f : FpFlags) : (s.orFlags f).freeCount = s.freeCount := rfl

/-! ## The flags a fault leaves -/

@[simp] theorem State.leaveFlags_cfg (s : State) (a b : FpFlags) : (s.leaveFlags a b).cfg = s.cfg := by
  unfold State.leaveFlags; split <;> rfl
@[simp] theorem State.leaveFlags_mode (s : State) (a b : FpFlags) : (s.leaveFlags a b).mode = s.mode := by
  unfold State.leaveFlags; split <;> rfl
@[simp] theorem State.leaveFlags_zmm (s : State) (a b : FpFlags) : (s.leaveFlags a b).zmm = s.zmm := by
  unfold State.leaveFlags; split <;> rfl
@[simp] theorem State.leaveFlags_k (s : State) (a b : FpFlags) : (s.leaveFlags a b).k = s.k := by
  unfold State.leaveFlags; split <;> rfl
@[simp] theorem State.leaveFlags_rip (s : State) (a b : FpFlags) : (s.leaveFlags a b).rip = s.rip := by
  unfold State.leaveFlags; split <;> rfl
@[simp] theorem State.leaveFlags_ripPast (s : State) (a b : FpFlags) : (s.leaveFlags a b).ripPast = s.ripPast := by
  unfold State.leaveFlags; split <;> rfl
@[simp] theorem State.leaveFlags_rflags (s : State) (a b : FpFlags) : (s.leaveFlags a b).rflags = s.rflags := by
  unfold State.leaveFlags; split <;> rfl
@[simp] theorem State.leaveFlags_gpr (s : State) (a b : FpFlags) : (s.leaveFlags a b).gpr = s.gpr := by
  unfold State.leaveFlags; split <;> rfl
@[simp] theorem State.leaveFlags_es (s : State) (a b : FpFlags) : (s.leaveFlags a b).es = s.es := by
  unfold State.leaveFlags; split <;> rfl
@[simp] theorem State.leaveFlags_cs (s : State) (a b : FpFlags) : (s.leaveFlags a b).cs = s.cs := by
  unfold State.leaveFlags; split <;> rfl
@[simp] theorem State.leaveFlags_ss (s : State) (a b : FpFlags) : (s.leaveFlags a b).ss = s.ss := by
  unfold State.leaveFlags; split <;> rfl
@[simp] theorem State.leaveFlags_ds (s : State) (a b : FpFlags) : (s.leaveFlags a b).ds = s.ds := by
  unfold State.leaveFlags; split <;> rfl
@[simp] theorem State.leaveFlags_fs (s : State) (a b : FpFlags) : (s.leaveFlags a b).fs = s.fs := by
  unfold State.leaveFlags; split <;> rfl
@[simp] theorem State.leaveFlags_gs (s : State) (a b : FpFlags) : (s.leaveFlags a b).gs = s.gs := by
  unfold State.leaveFlags; split <;> rfl
@[simp] theorem State.leaveFlags_cr0 (s : State) (a b : FpFlags) : (s.leaveFlags a b).cr0 = s.cr0 := by
  unfold State.leaveFlags; split <;> rfl
@[simp] theorem State.leaveFlags_cr2 (s : State) (a b : FpFlags) : (s.leaveFlags a b).cr2 = s.cr2 := by
  unfold State.leaveFlags; split <;> rfl
@[simp] theorem State.leaveFlags_cr4 (s : State) (a b : FpFlags) : (s.leaveFlags a b).cr4 = s.cr4 := by
  unfold State.leaveFlags; split <;> rfl
@[simp] theorem State.leaveFlags_xcr0 (s : State) (a b : FpFlags) : (s.leaveFlags a b).xcr0 = s.xcr0 := by
  unfold State.leaveFlags; split <;> rfl
@[simp] theorem State.leaveFlags_dr0 (s : State) (a b : FpFlags) : (s.leaveFlags a b).dr0 = s.dr0 := by
  unfold State.leaveFlags; split <;> rfl
@[simp] theorem State.leaveFlags_dr1 (s : State) (a b : FpFlags) : (s.leaveFlags a b).dr1 = s.dr1 := by
  unfold State.leaveFlags; split <;> rfl
@[simp] theorem State.leaveFlags_dr2 (s : State) (a b : FpFlags) : (s.leaveFlags a b).dr2 = s.dr2 := by
  unfold State.leaveFlags; split <;> rfl
@[simp] theorem State.leaveFlags_dr3 (s : State) (a b : FpFlags) : (s.leaveFlags a b).dr3 = s.dr3 := by
  unfold State.leaveFlags; split <;> rfl
@[simp] theorem State.leaveFlags_dr6 (s : State) (a b : FpFlags) : (s.leaveFlags a b).dr6 = s.dr6 := by
  unfold State.leaveFlags; split <;> rfl
@[simp] theorem State.leaveFlags_dr7 (s : State) (a b : FpFlags) : (s.leaveFlags a b).dr7 = s.dr7 := by
  unfold State.leaveFlags; split <;> rfl
@[simp] theorem State.leaveFlags_idtrBase (s : State) (a b : FpFlags) : (s.leaveFlags a b).idtrBase = s.idtrBase := by
  unfold State.leaveFlags; split <;> rfl
@[simp] theorem State.leaveFlags_gates (s : State) (a b : FpFlags) : (s.leaveFlags a b).gates = s.gates := by
  unfold State.leaveFlags; split <;> rfl
@[simp] theorem State.leaveFlags_rsp0 (s : State) (a b : FpFlags) : (s.leaveFlags a b).rsp0 = s.rsp0 := by
  unfold State.leaveFlags; split <;> rfl
@[simp] theorem State.leaveFlags_ist (s : State) (a b : FpFlags) : (s.leaveFlags a b).ist = s.ist := by
  unfold State.leaveFlags; split <;> rfl
@[simp] theorem State.leaveFlags_mem (s : State) (a b : FpFlags) : (s.leaveFlags a b).mem = s.mem := by
  unfold State.leaveFlags; split <;> rfl

/-! ## Writing a form back -/

@[simp] theorem writeBack_cfg (s0 s : State) (o : FormOp) : (writeBack s0 o s).cfg = s.cfg := rfl
@[simp] theorem writeBack_mode (s0 s : State) (o : FormOp) : (writeBack s0 o s).mode = s.mode := rfl
@[simp] theorem writeBack_zmm (s0 s : State) (o : FormOp) : (writeBack s0 o s).zmm = s.zmm.set o.dest.toNat (ofLanes (newLane s0 o)) (by omega) := rfl
@[simp] theorem writeBack_k (s0 s : State) (o : FormOp) : (writeBack s0 o s).k = s.k := rfl
@[simp] theorem writeBack_mxcsr (s0 s : State) (o : FormOp) : (writeBack s0 o s).mxcsr = s.mxcsr := rfl
@[simp] theorem writeBack_rip (s0 s : State) (o : FormOp) : (writeBack s0 o s).rip = nextPc s0 o.len := rfl
@[simp] theorem writeBack_ripPast (s0 s : State) (o : FormOp) : (writeBack s0 o s).ripPast = nextPast s0 o.len := rfl
@[simp] theorem writeBack_rflags (s0 s : State) (o : FormOp) : (writeBack s0 o s).rflags = s.rflags := rfl
@[simp] theorem writeBack_gpr (s0 s : State) (o : FormOp) : (writeBack s0 o s).gpr = s.gpr := rfl
@[simp] theorem writeBack_es (s0 s : State) (o : FormOp) : (writeBack s0 o s).es = s.es := rfl
@[simp] theorem writeBack_cs (s0 s : State) (o : FormOp) : (writeBack s0 o s).cs = s.cs := rfl
@[simp] theorem writeBack_ss (s0 s : State) (o : FormOp) : (writeBack s0 o s).ss = s.ss := rfl
@[simp] theorem writeBack_ds (s0 s : State) (o : FormOp) : (writeBack s0 o s).ds = s.ds := rfl
@[simp] theorem writeBack_fs (s0 s : State) (o : FormOp) : (writeBack s0 o s).fs = s.fs := rfl
@[simp] theorem writeBack_gs (s0 s : State) (o : FormOp) : (writeBack s0 o s).gs = s.gs := rfl
@[simp] theorem writeBack_cr0 (s0 s : State) (o : FormOp) : (writeBack s0 o s).cr0 = s.cr0 := rfl
@[simp] theorem writeBack_cr2 (s0 s : State) (o : FormOp) : (writeBack s0 o s).cr2 = s.cr2 := rfl
@[simp] theorem writeBack_cr4 (s0 s : State) (o : FormOp) : (writeBack s0 o s).cr4 = s.cr4 := rfl
@[simp] theorem writeBack_xcr0 (s0 s : State) (o : FormOp) : (writeBack s0 o s).xcr0 = s.xcr0 := rfl
@[simp] theorem writeBack_dr0 (s0 s : State) (o : FormOp) : (writeBack s0 o s).dr0 = s.dr0 := rfl
@[simp] theorem writeBack_dr1 (s0 s : State) (o : FormOp) : (writeBack s0 o s).dr1 = s.dr1 := rfl
@[simp] theorem writeBack_dr2 (s0 s : State) (o : FormOp) : (writeBack s0 o s).dr2 = s.dr2 := rfl
@[simp] theorem writeBack_dr3 (s0 s : State) (o : FormOp) : (writeBack s0 o s).dr3 = s.dr3 := rfl
@[simp] theorem writeBack_dr6 (s0 s : State) (o : FormOp) : (writeBack s0 o s).dr6 = s.dr6 := rfl
@[simp] theorem writeBack_dr7 (s0 s : State) (o : FormOp) : (writeBack s0 o s).dr7 = s.dr7 := rfl
@[simp] theorem writeBack_idtrBase (s0 s : State) (o : FormOp) : (writeBack s0 o s).idtrBase = s.idtrBase := rfl
@[simp] theorem writeBack_gates (s0 s : State) (o : FormOp) : (writeBack s0 o s).gates = s.gates := rfl
@[simp] theorem writeBack_rsp0 (s0 s : State) (o : FormOp) : (writeBack s0 o s).rsp0 = s.rsp0 := rfl
@[simp] theorem writeBack_ist (s0 s : State) (o : FormOp) : (writeBack s0 o s).ist = s.ist := rfl
@[simp] theorem writeBack_mem (s0 s : State) (o : FormOp) : (writeBack s0 o s).mem = s.mem := rfl
@[simp] theorem writeBack_freeCount (s0 s : State) (o : FormOp) : (writeBack s0 o s).freeCount = s.freeCount := rfl

/-! ## Entering a handler -/

@[simp] theorem State.enterHandler_cfg (s : State) (g : Gate) (sp : Word64) : (s.enterHandler g sp).cfg = s.cfg := rfl
@[simp] theorem State.enterHandler_mode (s : State) (g : Gate) (sp : Word64) : (s.enterHandler g sp).mode = s.mode := rfl
@[simp] theorem State.enterHandler_zmm (s : State) (g : Gate) (sp : Word64) : (s.enterHandler g sp).zmm = s.zmm := rfl
@[simp] theorem State.enterHandler_k (s : State) (g : Gate) (sp : Word64) : (s.enterHandler g sp).k = s.k := rfl
@[simp] theorem State.enterHandler_mxcsr (s : State) (g : Gate) (sp : Word64) : (s.enterHandler g sp).mxcsr = s.mxcsr := rfl
@[simp] theorem State.enterHandler_rip (s : State) (g : Gate) (sp : Word64) : (s.enterHandler g sp).rip = g.rip := rfl
@[simp] theorem State.enterHandler_ripPast (s : State) (g : Gate) (sp : Word64) : (s.enterHandler g sp).ripPast = false := rfl
@[simp] theorem State.enterHandler_rflags (s : State) (g : Gate) (sp : Word64) : (s.enterHandler g sp).rflags = handlerFlags g s.rflags := rfl
@[simp] theorem State.enterHandler_gpr (s : State) (g : Gate) (sp : Word64) : (s.enterHandler g sp).gpr = s.gpr.set 4 sp := rfl
@[simp] theorem State.enterHandler_es (s : State) (g : Gate) (sp : Word64) : (s.enterHandler g sp).es = s.es := rfl
@[simp] theorem State.enterHandler_cs (s : State) (g : Gate) (sp : Word64) : (s.enterHandler g sp).cs = g.cs := rfl
@[simp] theorem State.enterHandler_ds (s : State) (g : Gate) (sp : Word64) : (s.enterHandler g sp).ds = s.ds := rfl
@[simp] theorem State.enterHandler_fs (s : State) (g : Gate) (sp : Word64) : (s.enterHandler g sp).fs = s.fs := rfl
@[simp] theorem State.enterHandler_gs (s : State) (g : Gate) (sp : Word64) : (s.enterHandler g sp).gs = s.gs := rfl
@[simp] theorem State.enterHandler_cr0 (s : State) (g : Gate) (sp : Word64) : (s.enterHandler g sp).cr0 = s.cr0 := rfl
@[simp] theorem State.enterHandler_cr2 (s : State) (g : Gate) (sp : Word64) : (s.enterHandler g sp).cr2 = s.cr2 := rfl
@[simp] theorem State.enterHandler_cr4 (s : State) (g : Gate) (sp : Word64) : (s.enterHandler g sp).cr4 = s.cr4 := rfl
@[simp] theorem State.enterHandler_xcr0 (s : State) (g : Gate) (sp : Word64) : (s.enterHandler g sp).xcr0 = s.xcr0 := rfl
@[simp] theorem State.enterHandler_dr0 (s : State) (g : Gate) (sp : Word64) : (s.enterHandler g sp).dr0 = s.dr0 := rfl
@[simp] theorem State.enterHandler_dr1 (s : State) (g : Gate) (sp : Word64) : (s.enterHandler g sp).dr1 = s.dr1 := rfl
@[simp] theorem State.enterHandler_dr2 (s : State) (g : Gate) (sp : Word64) : (s.enterHandler g sp).dr2 = s.dr2 := rfl
@[simp] theorem State.enterHandler_dr3 (s : State) (g : Gate) (sp : Word64) : (s.enterHandler g sp).dr3 = s.dr3 := rfl
@[simp] theorem State.enterHandler_dr6 (s : State) (g : Gate) (sp : Word64) : (s.enterHandler g sp).dr6 = s.dr6 := rfl
@[simp] theorem State.enterHandler_dr7 (s : State) (g : Gate) (sp : Word64) : (s.enterHandler g sp).dr7 = s.dr7 := rfl
@[simp] theorem State.enterHandler_idtrBase (s : State) (g : Gate) (sp : Word64) : (s.enterHandler g sp).idtrBase = s.idtrBase := rfl
@[simp] theorem State.enterHandler_gates (s : State) (g : Gate) (sp : Word64) : (s.enterHandler g sp).gates = s.gates := rfl
@[simp] theorem State.enterHandler_rsp0 (s : State) (g : Gate) (sp : Word64) : (s.enterHandler g sp).rsp0 = s.rsp0 := rfl
@[simp] theorem State.enterHandler_ist (s : State) (g : Gate) (sp : Word64) : (s.enterHandler g sp).ist = s.ist := rfl
@[simp] theorem State.enterHandler_mem (s : State) (g : Gate) (sp : Word64) : (s.enterHandler g sp).mem = s.mem := rfl
@[simp] theorem State.enterHandler_freeCount (s : State) (g : Gate) (sp : Word64) : (s.enterHandler g sp).freeCount = s.freeCount := rfl

/-! ## What a fault records -/

@[simp] theorem State.recordFault_cfg (s : State) (e : Exc) (a : Word64) : (s.recordFault e a).cfg = s.cfg := by
  cases e <;> rfl
@[simp] theorem State.recordFault_mode (s : State) (e : Exc) (a : Word64) : (s.recordFault e a).mode = s.mode := by
  cases e <;> rfl
@[simp] theorem State.recordFault_zmm (s : State) (e : Exc) (a : Word64) : (s.recordFault e a).zmm = s.zmm := by
  cases e <;> rfl
@[simp] theorem State.recordFault_k (s : State) (e : Exc) (a : Word64) : (s.recordFault e a).k = s.k := by
  cases e <;> rfl
@[simp] theorem State.recordFault_mxcsr (s : State) (e : Exc) (a : Word64) : (s.recordFault e a).mxcsr = s.mxcsr := by
  cases e <;> rfl
@[simp] theorem State.recordFault_rip (s : State) (e : Exc) (a : Word64) : (s.recordFault e a).rip = s.rip := by
  cases e <;> rfl
@[simp] theorem State.recordFault_ripPast (s : State) (e : Exc) (a : Word64) : (s.recordFault e a).ripPast = s.ripPast := by
  cases e <;> rfl
@[simp] theorem State.recordFault_rflags (s : State) (e : Exc) (a : Word64) : (s.recordFault e a).rflags = s.rflags := by
  cases e <;> rfl
@[simp] theorem State.recordFault_gpr (s : State) (e : Exc) (a : Word64) : (s.recordFault e a).gpr = s.gpr := by
  cases e <;> rfl
@[simp] theorem State.recordFault_es (s : State) (e : Exc) (a : Word64) : (s.recordFault e a).es = s.es := by
  cases e <;> rfl
@[simp] theorem State.recordFault_cs (s : State) (e : Exc) (a : Word64) : (s.recordFault e a).cs = s.cs := by
  cases e <;> rfl
@[simp] theorem State.recordFault_ss (s : State) (e : Exc) (a : Word64) : (s.recordFault e a).ss = s.ss := by
  cases e <;> rfl
@[simp] theorem State.recordFault_ds (s : State) (e : Exc) (a : Word64) : (s.recordFault e a).ds = s.ds := by
  cases e <;> rfl
@[simp] theorem State.recordFault_fs (s : State) (e : Exc) (a : Word64) : (s.recordFault e a).fs = s.fs := by
  cases e <;> rfl
@[simp] theorem State.recordFault_gs (s : State) (e : Exc) (a : Word64) : (s.recordFault e a).gs = s.gs := by
  cases e <;> rfl
@[simp] theorem State.recordFault_cr0 (s : State) (e : Exc) (a : Word64) : (s.recordFault e a).cr0 = s.cr0 := by
  cases e <;> rfl
@[simp] theorem State.recordFault_cr4 (s : State) (e : Exc) (a : Word64) : (s.recordFault e a).cr4 = s.cr4 := by
  cases e <;> rfl
@[simp] theorem State.recordFault_xcr0 (s : State) (e : Exc) (a : Word64) : (s.recordFault e a).xcr0 = s.xcr0 := by
  cases e <;> rfl
@[simp] theorem State.recordFault_dr0 (s : State) (e : Exc) (a : Word64) : (s.recordFault e a).dr0 = s.dr0 := by
  cases e <;> rfl
@[simp] theorem State.recordFault_dr1 (s : State) (e : Exc) (a : Word64) : (s.recordFault e a).dr1 = s.dr1 := by
  cases e <;> rfl
@[simp] theorem State.recordFault_dr2 (s : State) (e : Exc) (a : Word64) : (s.recordFault e a).dr2 = s.dr2 := by
  cases e <;> rfl
@[simp] theorem State.recordFault_dr3 (s : State) (e : Exc) (a : Word64) : (s.recordFault e a).dr3 = s.dr3 := by
  cases e <;> rfl
@[simp] theorem State.recordFault_dr6 (s : State) (e : Exc) (a : Word64) : (s.recordFault e a).dr6 = s.dr6 := by
  cases e <;> rfl
@[simp] theorem State.recordFault_dr7 (s : State) (e : Exc) (a : Word64) : (s.recordFault e a).dr7 = s.dr7 := by
  cases e <;> rfl
@[simp] theorem State.recordFault_idtrBase (s : State) (e : Exc) (a : Word64) : (s.recordFault e a).idtrBase = s.idtrBase := by
  cases e <;> rfl
@[simp] theorem State.recordFault_gates (s : State) (e : Exc) (a : Word64) : (s.recordFault e a).gates = s.gates := by
  cases e <;> rfl
@[simp] theorem State.recordFault_rsp0 (s : State) (e : Exc) (a : Word64) : (s.recordFault e a).rsp0 = s.rsp0 := by
  cases e <;> rfl
@[simp] theorem State.recordFault_ist (s : State) (e : Exc) (a : Word64) : (s.recordFault e a).ist = s.ist := by
  cases e <;> rfl
@[simp] theorem State.recordFault_mem (s : State) (e : Exc) (a : Word64) : (s.recordFault e a).mem = s.mem := by
  cases e <;> rfl
@[simp] theorem State.recordFault_freeCount (s : State) (e : Exc) (a : Word64) : (s.recordFault e a).freeCount = s.freeCount := by
  cases e <;> rfl
@[simp] theorem State.recordFault_pf_cr2 (s : State) (c : BitVec 32) (a : Word64) : (s.recordFault (.pf c) a).cr2 = a := rfl

theorem State.recordFault_of_not_pf {s : State} {e : Exc} (a : Word64) (h : ∀ c, e ≠ .pf c) : s.recordFault e a = s := by
  cases e <;> first | rfl | exact absurd rfl (h _)

/-! ## Launch -/

@[simp] theorem State.launched_cfg (s : State) : (s.launched).cfg = s.cfg := rfl
@[simp] theorem State.launched_mode (s : State) : (s.launched).mode = .mode64 := rfl
@[simp] theorem State.launched_ripPast (s : State) : (s.launched).ripPast = false := rfl
@[simp] theorem State.launched_zmm (s : State) : (s.launched).zmm = s.zmm := rfl
@[simp] theorem State.launched_k (s : State) : (s.launched).k = s.k := rfl
@[simp] theorem State.launched_mxcsr (s : State) : (s.launched).mxcsr = s.mxcsr := rfl
@[simp] theorem State.launched_gpr (s : State) : (s.launched).gpr = s.gpr := rfl
@[simp] theorem State.launched_es (s : State) : (s.launched).es = s.es := rfl
@[simp] theorem State.launched_cs (s : State) : (s.launched).cs = s.cs := rfl
@[simp] theorem State.launched_ss (s : State) : (s.launched).ss = s.ss := rfl
@[simp] theorem State.launched_ds (s : State) : (s.launched).ds = s.ds := rfl
@[simp] theorem State.launched_fs (s : State) : (s.launched).fs = s.fs := rfl
@[simp] theorem State.launched_gs (s : State) : (s.launched).gs = s.gs := rfl
@[simp] theorem State.launched_cr2 (s : State) : (s.launched).cr2 = s.cr2 := rfl
@[simp] theorem State.launched_dr0 (s : State) : (s.launched).dr0 = s.dr0 := rfl
@[simp] theorem State.launched_dr1 (s : State) : (s.launched).dr1 = s.dr1 := rfl
@[simp] theorem State.launched_dr2 (s : State) : (s.launched).dr2 = s.dr2 := rfl
@[simp] theorem State.launched_dr3 (s : State) : (s.launched).dr3 = s.dr3 := rfl
@[simp] theorem State.launched_dr6 (s : State) : (s.launched).dr6 = s.dr6 := rfl
@[simp] theorem State.launched_idtrBase (s : State) : (s.launched).idtrBase = s.idtrBase := rfl
@[simp] theorem State.launched_gates (s : State) : (s.launched).gates = s.gates := rfl
@[simp] theorem State.launched_rsp0 (s : State) : (s.launched).rsp0 = s.rsp0 := rfl
@[simp] theorem State.launched_ist (s : State) : (s.launched).ist = s.ist := rfl
@[simp] theorem State.launched_mem (s : State) : (s.launched).mem = s.mem := rfl
@[simp] theorem State.launched_freeCount (s : State) : (s.launched).freeCount = s.freeCount := rfl

/-! ## Reading after writing -/

@[simp] theorem State.readZmm_writeZmm_self (s : State) (r : VReg) (v : Zmm) : (s.writeZmm r v).readZmm r = v := by
  simp [State.readZmm]

theorem State.readZmm_writeZmm_other (s : State) {r q : VReg} (v : Zmm) (h : q ≠ r) :
    (s.writeZmm r v).readZmm q = s.readZmm q := by
  have : r.toNat ≠ q.toNat := fun e => h (BitVec.eq_of_toNat_eq e.symm)
  simp [State.readZmm, Vector.getElem_set_ne, this]

@[simp] theorem laneOf_ofLanes (f : Nat → Lane) (j : Nat) (h : j < 8) : laneOf (ofLanes f) j = f j := by
  interval_cases j <;> rfl

theorem laneOf_high (v : Zmm) {j : Nat} (h : 8 ≤ j) : laneOf v j = 0 := by
  simp [laneOf, Nat.not_lt.mpr h]

/-- A vector register is its eight lanes. -/
theorem zmm_ext {v w : Zmm} (h : ∀ j, j < 8 → laneOf v j = laneOf w j) : v = w := by
  apply Vector.ext
  intro i hi
  simpa [laneOf, hi] using h i hi

@[simp] theorem readZmm_writeBack_self (s0 s : State) (o : FormOp) :
    (writeBack s0 o s).readZmm o.dest = ofLanes (newLane s0 o) := by
  simp [State.readZmm]

theorem readZmm_writeBack_other (s0 s : State) (o : FormOp) {r : VReg} (h : r ≠ o.dest) :
    (writeBack s0 o s).readZmm r = s.readZmm r :=
  State.readZmm_writeZmm_other s _ h

end Sys2Proof.Machine
end

