-- ==== Sys2Proof/Laws/Memory.lean ====
section
/-! SUPPORT. Memory: reading after writing, and that every memory operation keeps the canonical form. -/

namespace Sys2Proof.Machine

/-! ## Reading after writing -/

/-- Every address listed is at least `lo`, so a lower one reads as unlisted. -/
theorem memRead_below {m : List Host.Cell} {lo a : Nat} (h : memWfFrom lo m = true) (ha : a < lo) :
    memRead m a = unlistedByte := by
  induction m generalizing lo with
  | nil => rfl
  | cons c m ih =>
    obtain ⟨k, b⟩ := c
    simp only [memWfFrom, Bool.and_eq_true, decide_eq_true_eq] at h
    obtain ⟨⟨⟨hk, -⟩, -⟩, hm⟩ := h
    have : k ≠ a := by omega
    simp only [memRead, this, if_false]
    exact ih hm (by omega)

theorem memRead_memWrite_same {m : List Host.Cell} {lo : Nat} (h : memWfFrom lo m = true) (a : Nat) (b : Byte) :
    memRead (memWrite m a b) a = b := by
  induction m generalizing lo with
  | nil => by_cases hb : b = unlistedByte <;> simp [memWrite, memRead, hb]
  | cons c m ih =>
    obtain ⟨k, c⟩ := c
    simp only [memWfFrom, Bool.and_eq_true, decide_eq_true_eq] at h
    obtain ⟨⟨⟨-, -⟩, -⟩, hm⟩ := h
    by_cases hb : b = unlistedByte
    · by_cases h1 : a < k
      · have : k ≠ a := by omega
        simp [memWrite, h1, hb, memRead, this, memRead_below hm (show a < k + 1 by omega)]
      · by_cases h2 : a = k
        · simp [memWrite, h2, hb, memRead_below hm (show k < k + 1 by omega)]
        · have : k ≠ a := by omega
          simp only [memWrite, h1, h2, if_false, memRead, this]
          exact ih hm
    · by_cases h1 : a < k
      · simp [memWrite, h1, hb, memRead]
      · by_cases h2 : a = k
        · simp [memWrite, h2, hb, memRead]
        · have : k ≠ a := by omega
          simp only [memWrite, h1, h2, if_false, memRead, this]
          exact ih hm

/-- A write leaves every other address alone, the memory being in canonical form or not. -/
theorem memRead_memWrite_other (m : List Host.Cell) {a a' : Nat} (b : Byte) (ha : a' ≠ a) :
    memRead (memWrite m a b) a' = memRead m a' := by
  induction m with
  | nil => by_cases hb : b = unlistedByte <;> simp [memWrite, memRead, hb, ha.symm]
  | cons c m ih =>
    obtain ⟨k, c⟩ := c
    by_cases h1 : a < k
    · by_cases hb : b = unlistedByte <;> simp [memWrite, h1, hb, memRead, ha.symm]
    · by_cases h2 : a = k
      · subst h2
        by_cases hb : b = unlistedByte <;> simp [memWrite, hb, memRead, ha.symm]
      · simp only [memWrite, h1, h2, if_false, memRead, ih]

/-! ## The canonical form -/

theorem memWfFrom_mono {m : List Host.Cell} {lo lo' : Nat} (h : memWfFrom lo m = true) (hl : lo' ≤ lo) :
    memWfFrom lo' m = true := by
  cases m with
  | nil => rfl
  | cons c m =>
    simp only [memWfFrom, Bool.and_eq_true, decide_eq_true_eq] at h ⊢
    exact ⟨⟨⟨by omega, h.1.1.2⟩, h.1.2⟩, h.2⟩

theorem memWfFrom_memWrite {m : List Host.Cell} {lo : Nat} (h : memWfFrom lo m = true) {a : Nat} (b : Byte)
    (hlo : lo ≤ a) (ha : a < 2 ^ 64) : memWfFrom lo (memWrite m a b) = true := by
  induction m generalizing lo with
  | nil =>
    by_cases hb : b = unlistedByte
    · simp [memWrite, hb, memWfFrom]
    · simp [memWrite, hb, memWfFrom, hlo]; omega
  | cons c m ih =>
    obtain ⟨k, c⟩ := c
    have h' := h
    simp only [memWfFrom, Bool.and_eq_true, decide_eq_true_eq] at h'
    obtain ⟨⟨⟨hk, hk64⟩, hc⟩, hm⟩ := h'
    by_cases hb : b = unlistedByte
    · by_cases h1 : a < k
      · simpa [memWrite, h1, hb] using h
      · by_cases h2 : a = k
        · simpa [memWrite, h1, h2, hb] using memWfFrom_mono hm (show lo ≤ k + 1 by omega)
        · simp only [memWrite, h1, h2, if_false, memWfFrom, Bool.and_eq_true, decide_eq_true_eq]
          exact ⟨⟨⟨hk, hk64⟩, hc⟩, ih hm (by omega)⟩
    · have hb' : (b != unlistedByte) = true := by simpa using hb
      by_cases h1 : a < k
      · simp only [memWrite, h1, hb, if_true, if_false, memWfFrom, Bool.and_eq_true, decide_eq_true_eq]
        exact ⟨⟨⟨hlo, ha⟩, hb'⟩, ⟨⟨by omega, hk64⟩, hc⟩, hm⟩
      · by_cases h2 : a = k
        · subst h2
          simp only [memWrite, Nat.lt_irrefl, hb, if_true, if_false, memWfFrom, Bool.and_eq_true, decide_eq_true_eq]
          exact ⟨⟨⟨hlo, ha⟩, hb'⟩, hm⟩
        · simp only [memWrite, h1, h2, if_false, memWfFrom, Bool.and_eq_true, decide_eq_true_eq]
          exact ⟨⟨⟨hk, hk64⟩, hc⟩, ih hm (by omega)⟩

/-- Writing a byte keeps the canonical form. -/
theorem memWrite_wf {m : List Host.Cell} (h : Memory.wf m = true) {a : Nat} (b : Byte) (ha : a < 2 ^ 64) :
    Memory.wf (memWrite m a b) = true :=
  memWfFrom_memWrite h b (Nat.zero_le a) ha

theorem reset_mem_wf : Memory.wf State.reset.mem = true := rfl

/-! ## Stores -/

/-- What a byte store does: it writes one physical address of ordinary memory. -/
theorem storeByte_cases {cpl : BitVec 2} {s t : State} {la : Word64} {b : Byte} (h : storeByte cpl s la b = some t) :
    ∃ pa : Word64, s.canonical la = true ∧ s.translate .read cpl la = .physical pa ∧
      regionKind s.cfg.addressMap pa.toNat = .ordinary ∧ t = { s with mem := memWrite s.mem pa.toNat b } := by
  unfold storeByte at h
  split at h
  case isTrue hc =>
    cases ht : s.translate .read cpl la with
    | fault e a => simp [ht] at h
    | physical pa =>
      simp only [ht] at h
      split at h
      case isTrue hr => exact ⟨pa, hc, rfl, hr, (Option.some.inj h).symm⟩
      case isFalse => cases h
  case isFalse => cases h

/-- What changes when bytes are stored: memory alone. -/
theorem storeBytes_frame {cpl : BitVec 2} {n : Nat} {s t : State} {la w : Word64}
    (h : storeBytes cpl n s la w = some t) : t = { s with mem := t.mem } := by
  induction n generalizing s la w with
  | zero => cases h; rfl
  | succ n ih =>
    obtain ⟨u, hu, ht⟩ := Option.bind_eq_some_iff.mp h
    obtain ⟨pa, -, -, -, rfl⟩ := storeByte_cases hu
    rw [ih ht]

theorem storeBytes_wf {cpl : BitVec 2} {n : Nat} {s t : State} {la w : Word64} (h : storeBytes cpl n s la w = some t)
    (hs : Memory.wf s.mem = true) : Memory.wf t.mem = true := by
  induction n generalizing s la w with
  | zero => cases h; exact hs
  | succ n ih =>
    obtain ⟨u, hu, ht⟩ := Option.bind_eq_some_iff.mp h
    obtain ⟨pa, -, -, -, rfl⟩ := storeByte_cases hu
    exact ih ht (memWrite_wf (m := s.mem) hs _ pa.isLt)

/-- Storing bytes leaves every physical byte alone that none of their addresses translates to. -/
theorem storeBytes_memRead_other {cpl : BitVec 2} {n : Nat} {s t : State} {la w : Word64} {a : Nat}
    (h : storeBytes cpl n s la w = some t)
    (ha : ∀ k, k < n → ∀ pa : Word64, s.translate .read cpl (la + BitVec.ofNat 64 k) = .physical pa → pa.toNat ≠ a) :
    memRead t.mem a = memRead s.mem a := by
  induction n generalizing s la w with
  | zero => cases h; rfl
  | succ n ih =>
    obtain ⟨u, hu, ht⟩ := Option.bind_eq_some_iff.mp h
    obtain ⟨pa, -, hp, -, rfl⟩ := storeByte_cases hu
    have h0 : pa.toNat ≠ a := ha 0 (by omega) pa (by simpa using hp)
    refine (ih ht fun k hk pa' hp' => ?_).trans (memRead_memWrite_other s.mem _ h0.symm)
    refine ha (k + 1) (by omega) pa' ?_
    rw [show la + BitVec.ofNat 64 (k + 1) = la + 1 + BitVec.ofNat 64 k by
      rw [BitVec.ofNat_add, BitVec.add_assoc, BitVec.add_comm (BitVec.ofNat 64 k)]; rfl]
    exact hp'

/-- What changes when words are pushed: memory alone; the canonical form is kept. -/
theorem pushWords_cases {cpl : BitVec 2} {ws : List Word64} {sp sp' : Word64} {s t : State}
    (h : pushWords cpl ws sp s = some (sp', t)) :
    t = { s with mem := t.mem } ∧ sp' = sp - BitVec.ofNat 64 (8 * ws.length) ∧
      (Memory.wf s.mem = true → Memory.wf t.mem = true) := by
  induction ws generalizing sp s with
  | nil => cases h; exact ⟨rfl, by simp, id⟩
  | cons w ws ih =>
    obtain ⟨u, hu, ht⟩ := Option.bind_eq_some_iff.mp h
    obtain ⟨h1, h2, h3⟩ := ih ht
    refine ⟨?_, ?_, fun hs => h3 (storeBytes_wf hu hs)⟩
    · rw [h1, storeBytes_frame hu]
    · rw [h2, List.length_cons, Nat.mul_add, BitVec.ofNat_add]
      simp only [Nat.mul_one]
      bv_omega

/-- Placing code changes memory alone; the canonical form is kept. -/
theorem storeCode_cases (s : State) (k : Nat) (bs : List Byte) :
    storeCode s k bs = { s with mem := (storeCode s k bs).mem } ∧
      (Memory.wf s.mem = true → Memory.wf (storeCode s k bs).mem = true) := by
  induction bs generalizing s k with
  | nil => exact ⟨rfl, id⟩
  | cons b bs ih =>
    unfold storeCode
    split
    case h_1 pa _ =>
      obtain ⟨h1, h2⟩ := ih { s with mem := memWrite s.mem pa.toNat b } (k + 1)
      exact ⟨h1, fun hs => h2 (memWrite_wf hs b pa.isLt)⟩
    case h_2 => exact ih s (k + 1)

end Sys2Proof.Machine
end

