-- ==== Sys2Proof/Laws/Exec.lean ====
section
/-! SUPPORT. What each shared operation of a form can do, said once: the response to flags, the operand read, `EXEC`,
taking an exception, and the step. -/

namespace Sys2Proof.Machine

/-- Every form's meaning is `EXEC` on its parameters (R104). -/
theorem exec_eq_execForm (i : Instr) (s : State) : exec i s = execForm i.formOp s := by
  cases i <;> rfl

/-! ## Floating-point exceptions -/

/-- The response completes exactly when no raised flag is unmasked. -/
theorem fpRespond_completes {s t : State} {f : FpFlags} (h : fpRespond s f = .completes t) :
    s.unmasked f = 0 ∧ t = s.orFlags f := by
  unfold fpRespond at h
  split at h
  · cases h
  · split at h
    · cases h
    case isFalse h2 => exact ⟨by simpa using h2, (FpResponse.completes.inj h).symm⟩

theorem fpRespond_of_masked {s : State} {f : FpFlags} (h : s.unmasked f = 0) : fpRespond s f = .completes (s.orFlags f) := by
  have hp : s.unmasked (f &&& preFlags) = 0 := by
    unfold State.unmasked at h ⊢
    rw [BitVec.and_assoc, BitVec.and_comm preFlags, ← BitVec.and_assoc, h]; exact BitVec.zero_and
  simp [fpRespond, h, hp]

/-- A faulting response leaves the pre-computation flags, or all of them, or a free part of them. -/
theorem fpRespond_faults {s t : State} {f : FpFlags} (h : fpRespond s f = .faults t) :
    s.unmasked f ≠ 0 ∧ ((s.unmasked (f &&& preFlags) ≠ 0 ∧ t = s.leaveFlags (f &&& preFlags) f) ∨
      (s.unmasked (f &&& preFlags) = 0 ∧ t = s.leaveFlags f f)) := by
  unfold fpRespond at h
  split at h
  case isTrue h1 =>
    refine ⟨fun h0 => h1 ?_, .inl ⟨h1, (FpResponse.faults.inj h).symm⟩⟩
    unfold State.unmasked at h0 ⊢
    rw [BitVec.and_assoc, BitVec.and_comm preFlags, ← BitVec.and_assoc, h0]; exact BitVec.zero_and
  case isFalse h1 =>
    split at h
    case isTrue h2 => exact ⟨h2, .inr ⟨by simpa using h1, (FpResponse.faults.inj h).symm⟩⟩
    case isFalse => cases h

/-! ## The operand read -/

/-- A stop of the operand read is a segment or alignment exception, a fault of `Translate` with its address recorded, a
hole in the address map, or a refusal. -/
theorem memOperandStop_cases {s : State} {o : FormOp} {m : MemOperand} {bcst : Bool} {r : Result}
    (h : memOperandStop s o m bcst = some r) :
    (∃ e, (e = .ss ∨ e = .gp ∨ e = .ac) ∧ r = raise e s) ∨ (∃ e a, r = raiseTranslation e a s) ∨
      (∃ pa, r = .fault (.unmapped pa)) ∨ (∃ pa, r = .refused (.deviceOperand pa)) ∨ r = .refused .addressing16 := by
  unfold memOperandStop at h
  simp only at h
  split at h
  · exact .inr (.inr (.inr (.inr (Option.some.inj h).symm)))
  · split at h
    case h_1 e he =>
      refine .inl ⟨e, ?_, (Option.some.inj h).symm⟩
      unfold segmentFault at he
      repeat' split at he
      all_goals first
        | (cases he; done)
        | (obtain rfl := Option.some.inj he; first | exact .inr (.inl rfl) | (unfold segException; split <;> simp))
    case h_2 =>
      split at h
      · exact .inl ⟨.ac, .inr (.inr rfl), (Option.some.inj h).symm⟩
      · split at h
        case h_1 c la _ => exact .inr (.inl ⟨c, la, (Option.some.inj h).symm⟩)
        case h_2 =>
          split at h
          case h_1 pa _ => exact .inr (.inr (.inr (.inl ⟨pa, (Option.some.inj h).symm⟩)))
          case h_2 =>
            split at h
            case h_1 pa _ => exact .inr (.inr (.inl ⟨pa, (Option.some.inj h).symm⟩))
            case h_2 => cases h

/-- A register operand never stops. -/
theorem operandStop_register {s : State} {o : FormOp} (h : registerForm o = true) : operandStop s o = none := by
  unfold registerForm at h
  unfold operandStop memOperand?
  cases hs : o.src3 <;> simp_all

theorem operandStop_cases {s : State} {o : FormOp} {r : Result} (h : operandStop s o = some r) :
    (∃ e, (e = .ss ∨ e = .gp ∨ e = .ac) ∧ r = raise e s) ∨ (∃ e a, r = raiseTranslation e a s) ∨
      (∃ pa, r = .fault (.unmapped pa)) ∨ (∃ pa, r = .refused (.deviceOperand pa)) ∨ r = .refused .addressing16 := by
  unfold operandStop at h
  split at h
  · cases h
  · exact memOperandStop_cases h

/-! ## EXEC -/

/-- The MXCSR a completed form leaves. -/
def afterFlags (s : State) (o : FormOp) : State := if suppressAll s o then s else s.orFlags (raisedFlags s o)

/-- Where a form completes, and with what state. -/
theorem execForm_next_iff {o : FormOp} {s t : State} :
    execForm o s = .next t ↔ Completes s o ∧ t = writeBack s o (afterFlags s o) := by
  constructor
  · intro h
    unfold execForm at h
    split at h
    · cases h
    case isFalse he =>
      split at h
      · cases h
      case isFalse ht =>
        split at h
        case h_1 r hr => rcases operandStop_cases hr with ⟨e, -, rfl⟩ | ⟨c, la, rfl⟩ | ⟨pa, rfl⟩ | ⟨pa, rfl⟩ | rfl <;> cases h
        case h_2 hn =>
          have he' : formEnabled s o = true := by simpa using he
          have ht' : s.cr0TS = false := by simpa using ht
          unfold computeForm at h
          split at h
          case isTrue hs =>
            cases h
            exact ⟨⟨he', ht', hn, by simp [fpQuiet, hs]⟩, by simp [afterFlags, hs]⟩
          case isFalse hs =>
            split at h
            case h_1 u hu =>
              obtain ⟨hm, rfl⟩ := fpRespond_completes hu
              cases h
              refine ⟨⟨he', ht', hn, ?_⟩, by simp [afterFlags, hs, raisedFlags]⟩
              simp [fpQuiet, raisedFlags, hm]
            case h_2 => cases h
  · rintro ⟨⟨he, ht, hn, hq⟩, rfl⟩
    unfold execForm computeForm
    simp only [he, ht, hn, Bool.not_true, Bool.false_eq_true, if_false]
    by_cases hs : suppressAll s o = true
    · simp [hs, afterFlags]
    · have hm : s.unmasked (unionFlags s o (vecLanes o.vl)) = 0 := by
        unfold fpQuiet raisedFlags at hq
        rw [Bool.eq_false_iff.mpr hs, Bool.false_or] at hq
        exact of_decide_eq_true hq
      simp [hs, fpRespond_of_masked hm, afterFlags, raisedFlags]

/-- Every outcome of a form that is not completion. -/
theorem execForm_stop_cases {o : FormOp} {s : State} {r : Result} (h : execForm o s = r) (hr : ∀ t, r ≠ .next t) :
    r = raise .ud s ∨ r = raise .nm s ∨ operandStop s o = some r ∨
      (∃ u, fpRespond s (raisedFlags s o) = .faults u ∧ r = raise u.fpException u) := by
  unfold execForm at h
  split at h
  · exact .inl h.symm
  · split at h
    · exact .inr (.inl h.symm)
    · split at h
      case h_1 q hq => exact .inr (.inr (.inl (h ▸ hq)))
      case h_2 =>
        unfold computeForm at h
        split at h
        · exact absurd h.symm (hr _)
        · split at h
          · exact absurd h.symm (hr _)
          case h_2 u hu => exact .inr (.inr (.inr ⟨u, hu, h.symm⟩))

/-! ## Taking an exception, and the step -/

/-- Taking an exception enters the handler of a gate, after its frame is pushed, or stops. -/
theorem takeException_next {e : Exc} {s t : State} (h : takeException e s = .next t) :
    ∃ g sp u, s.is64 = true ∧ s.gateFor e = some g ∧
      pushWords (g.cs.selector.extractLsb' 0 2) (s.exceptionFrame e) (s.deliveryStack g) s = some (sp, u) ∧
      t = u.enterHandler g sp := by
  unfold takeException at h
  split at h
  case isTrue h64 =>
    split at h
    · cases h
    case h_2 g hg =>
      split at h
      · cases h
      case h_2 sp u hp => exact ⟨g, sp, u, h64, hg, hp, (Host.Outcome.next.inj h).symm⟩
  case isFalse => cases h

theorem takeException_noGate {e : Exc} {s : State} (h : s.gateFor e = none) :
    takeException e s = .fault (.exception e s) := by
  unfold takeException
  split
  · rw [h]
  · rfl

/-- What delivers as a next state: a next state, or an exception taken. -/
theorem deliver_next {r : Result} {t : State} (h : deliver r = .next t) :
    r = .next t ∨ ∃ e u, r = .fault (.exception e u) ∧ takeException e u = .next t := by
  unfold deliver at h
  split at h
  · exact .inr ⟨_, _, rfl, h⟩
  · cases h
  · cases h
  · exact .inl h
  · cases h

/-- A step with no breakpoint on the instruction runs the fetched instruction. -/
theorem stepInstr_instr {s : State} {i : Instr} (hc : codeHits s = 0) (hf : fetch s = .instr i) :
    stepInstr s = debugTrap s i.formOp (exec i s) := by
  simp [stepInstr, hc, hf]

theorem debugTrap_next {s t : State} {o : FormOp} {r : Result} (h : debugTrap s o r = .next t) :
    r = .next t ∧ dataHits s o ||| stepBit s = 0 := by
  unfold debugTrap at h
  split at h
  · split at h
    case isTrue h0 => exact ⟨h, h0⟩
    case isFalse => cases h
  · cases h
  · cases h

/-! ## The address map -/

/-- An answer of the search for a region is the physical address of one of the addresses, and lies there. -/
theorem firstInRegion_some {s : State} {acc : Access} {kind : RegionKind} {las : List Word64} {pa : Word64}
    (h : firstInRegion s acc kind las = some pa) :
    regionKind s.cfg.addressMap pa.toNat = kind ∧ ∃ la ∈ las, s.translate acc s.cpl la = .physical pa := by
  induction las with
  | nil => cases h
  | cons la las ih =>
    unfold firstInRegion at h
    split at h
    case h_1 =>
      obtain ⟨h1, la', h2, h3⟩ := ih h
      exact ⟨h1, la', List.mem_cons_of_mem _ h2, h3⟩
    case h_2 pa' ht =>
      split at h
      case isTrue hk => cases h; exact ⟨hk, la, List.mem_cons_self, ht⟩
      case isFalse =>
        obtain ⟨h1, la', h2, h3⟩ := ih h
        exact ⟨h1, la', List.mem_cons_of_mem _ h2, h3⟩

/-- No address is found exactly when none translates into the region. -/
theorem firstInRegion_eq_none {s : State} {acc : Access} {kind : RegionKind} {las : List Word64} :
    firstInRegion s acc kind las = none ↔
      ∀ la ∈ las, ∀ pa, s.translate acc s.cpl la = .physical pa → regionKind s.cfg.addressMap pa.toNat ≠ kind := by
  induction las with
  | nil => simp [firstInRegion]
  | cons la las ih =>
    rw [firstInRegion]
    cases ht : s.translate acc s.cpl la with
    | fault e a => simp [ih, ht]
    | physical pa =>
      by_cases hk : regionKind s.cfg.addressMap pa.toNat = kind
      · simp [hk, ht]
      · simp [hk, ht, ih]

/-! ## Fetch -/

/-- What ends a window of instruction bytes is the stop of one of them. -/
theorem fetchWindow_stop {s : State} {n k : Nat} {r : Result} (h : (fetchWindow s n k).2 = some r) :
    ∃ j, k ≤ j ∧ j < k + n ∧ fetchStop s j = some r := by
  induction n generalizing k with
  | zero => cases h
  | succ n ih =>
    unfold fetchWindow at h
    split at h
    case h_1 r' hr => exact ⟨k, le_rfl, by omega, by rw [hr]; exact h⟩
    case h_2 =>
      obtain ⟨j, h1, h2, h3⟩ := ih h
      exact ⟨j, by omega, by omega, h3⟩

/-- What more than 15 bytes answer: #GP(0), the refusal of what is none of the forms, or the stop of one of the bytes. -/
theorem overlong_cases (s : State) :
    overlong s = raise .gp s ∨ overlong s = .refused .notInSpec ∨ ∃ k r, fetchStop s k = some r ∧ overlong s = r := by
  unfold overlong
  dsimp only
  split
  · cases h : (fetchWindow s (prefixRun s (2 ^ 64) 0 + longestForm) 0).2 with
    | none => exact .inl rfl
    | some r =>
      obtain ⟨j, -, -, h3⟩ := fetchWindow_stop h
      exact .inr (.inr ⟨j, r, h3, rfl⟩)
  · exact .inr (.inl rfl)
  all_goals exact .inl rfl

end Sys2Proof.Machine
end

