-- ==== Sys2Proof/Laws/PerInstr.lean ====
section
/-! SUPPORT. Statements for all instructions, one lemma per constructor. -/

namespace Sys2Proof.Laws.EncodedLength

/-- The encoder writes exactly `len` bytes (R52). -/
def Statement (i : Instr) : Prop := (encode i).length = i.formOp.len

theorem disp_length (d : Disp) : d.encode.length = d.size := by cases d <;> rfl

theorem mem_length (m : MemOperand) (reg : BitVec 3) : (m.encode reg).length = 1 + m.size := by
  cases m <;> simp [MemOperand.encode, MemOperand.size, disp_length, encodeDisp32, Nat.add_comm]

theorem vex_length (f : Form) (l : BitVec 1) (d v : VexReg) (r : VexSrc3) :
    (encodeVex f l d v r).length = 5 + r.toSrc3.size := by
  cases r <;> simp [encodeVex, VexSrc3.toSrc3, Src3.size, mem_length]
  omega

theorem evex_length (f : Form) (vl : VecLen) (k : MaskSpec) (d v : VReg) (r : EvexSrc3) :
    (encodeEvex f vl k d v r).length = 6 + r.toSrc3.size := by
  cases r <;> simp [encodeEvex, EvexSrc3.toSrc3, Src3.size, mem_length] <;> omega

theorem vex_statement (f : Form) (vl : VecLen) (l : BitVec 1) (x : List LegacyPrefix) (d v : VexReg) (r : VexSrc3) :
    (x.map LegacyPrefix.byte ++ encodeVex f l d v r).length = (vexOp f vl x d v r).len := by
  simp [vex_length, FormOp.len, vexOp]
  omega

theorem evex_statement (f : Form) (vl : VecLen) (x : List LegacyPrefix) (k : MaskSpec) (d v : VReg) (r : EvexSrc3) :
    (x.map LegacyPrefix.byte ++ encodeEvex f vl k d v r).length = (evexOp f vl x k d v r).len := by
  simp [evex_length, FormOp.len, evexOp]
  omega

theorem vfmsubadd132pdXmmVex (x : List LegacyPrefix) (d v : VexReg) (r : VexSrc3) :
    Statement (.vfmsubadd132pdXmmVex x d v r) := vex_statement _ _ _ x d v r

theorem vfmsubadd213pdXmmVex (x : List LegacyPrefix) (d v : VexReg) (r : VexSrc3) :
    Statement (.vfmsubadd213pdXmmVex x d v r) := vex_statement _ _ _ x d v r

theorem vfmsubadd231pdXmmVex (x : List LegacyPrefix) (d v : VexReg) (r : VexSrc3) :
    Statement (.vfmsubadd231pdXmmVex x d v r) := vex_statement _ _ _ x d v r

theorem vfmsubadd132pdYmmVex (x : List LegacyPrefix) (d v : VexReg) (r : VexSrc3) :
    Statement (.vfmsubadd132pdYmmVex x d v r) := vex_statement _ _ _ x d v r

theorem vfmsubadd213pdYmmVex (x : List LegacyPrefix) (d v : VexReg) (r : VexSrc3) :
    Statement (.vfmsubadd213pdYmmVex x d v r) := vex_statement _ _ _ x d v r

theorem vfmsubadd231pdYmmVex (x : List LegacyPrefix) (d v : VexReg) (r : VexSrc3) :
    Statement (.vfmsubadd231pdYmmVex x d v r) := vex_statement _ _ _ x d v r

theorem vfmsubadd132pdXmmEvex (x : List LegacyPrefix) (k : MaskSpec) (d v : VReg) (r : EvexSrc3) :
    Statement (.vfmsubadd132pdXmmEvex x k d v r) := evex_statement _ _ x k d v r

theorem vfmsubadd213pdXmmEvex (x : List LegacyPrefix) (k : MaskSpec) (d v : VReg) (r : EvexSrc3) :
    Statement (.vfmsubadd213pdXmmEvex x k d v r) := evex_statement _ _ x k d v r

theorem vfmsubadd231pdXmmEvex (x : List LegacyPrefix) (k : MaskSpec) (d v : VReg) (r : EvexSrc3) :
    Statement (.vfmsubadd231pdXmmEvex x k d v r) := evex_statement _ _ x k d v r

theorem vfmsubadd132pdYmmEvex (x : List LegacyPrefix) (k : MaskSpec) (d v : VReg) (r : EvexSrc3) :
    Statement (.vfmsubadd132pdYmmEvex x k d v r) := evex_statement _ _ x k d v r

theorem vfmsubadd213pdYmmEvex (x : List LegacyPrefix) (k : MaskSpec) (d v : VReg) (r : EvexSrc3) :
    Statement (.vfmsubadd213pdYmmEvex x k d v r) := evex_statement _ _ x k d v r

theorem vfmsubadd231pdYmmEvex (x : List LegacyPrefix) (k : MaskSpec) (d v : VReg) (r : EvexSrc3) :
    Statement (.vfmsubadd231pdYmmEvex x k d v r) := evex_statement _ _ x k d v r

theorem vfmsubadd132pdZmmEvex (x : List LegacyPrefix) (k : MaskSpec) (d v : VReg) (r : EvexSrc3) :
    Statement (.vfmsubadd132pdZmmEvex x k d v r) := evex_statement _ _ x k d v r

theorem vfmsubadd213pdZmmEvex (x : List LegacyPrefix) (k : MaskSpec) (d v : VReg) (r : EvexSrc3) :
    Statement (.vfmsubadd213pdZmmEvex x k d v r) := evex_statement _ _ x k d v r

theorem vfmsubadd231pdZmmEvex (x : List LegacyPrefix) (k : MaskSpec) (d v : VReg) (r : EvexSrc3) :
    Statement (.vfmsubadd231pdZmmEvex x k d v r) := evex_statement _ _ x k d v r

end Sys2Proof.Laws.EncodedLength
end

