-- ==== Sys2Proof/Laws/Run.lean ====
section
/-! SUPPORT. Translation without rows, `pc` as a number, and one step of a run. -/

namespace Sys2Proof.Machine

/-! ## Translation -/

@[simp] theorem lookupRow_nil (acc : Access) (cpl : BitVec 2) (la : Word64) : lookupRow [] acc cpl la = none := rfl

/-- With paging off a linear address is physical. -/
theorem translate_paging_off {s : State} (h : s.cr0PG = false) (acc : Access) (cpl : BitVec 2) (la : Word64) :
    s.translate acc cpl la = .physical la := by
  simp [State.translate, h]

/-- Under the identity translation a linear address is physical, paging on or off. -/
theorem translate_identity {s : State} (h : s.cfg.translation = { rows := [], pages := [], unlisted := .identity })
    (acc : Access) (cpl : BitVec 2) (la : Word64) : s.translate acc cpl la = .physical la := by
  simp [State.translate, h, lookupPage]

/-- Without rows `Translate` answers a physical address, or a #PF whose faulting address is the one accessed. -/
theorem translate_cases_of_noRows {s : State} (h : s.cfg.translation.rows = []) (acc : Access) (cpl : BitVec 2)
    (la : Word64) : (∃ pa, s.translate acc cpl la = .physical pa) ∨ ∃ c, s.translate acc cpl la = .fault (.pf c) la := by
  unfold State.translate
  rw [h, lookupRow_nil]
  split
  · simp only
    split
    · simp only [accessPage]
      repeat' split
      all_goals first
        | exact .inl ⟨_, rfl⟩
        | exact .inr ⟨_, rfl⟩
    · split
      · exact .inl ⟨_, rfl⟩
      · exact .inr ⟨_, rfl⟩
  · exact .inl ⟨_, rfl⟩

/-! ## `pc` -/

theorem pc_of_not_past {s : State} (h : s.ripPast = false) : s.pc = s.rip.toNat := by simp [State.pc, h]

/-- In 64-bit mode `pc + len` is not reduced, up to the top of the address space (R123 (b)). -/
theorem pc_of_pcAdvances {s t : State} {len : Nat} (h : PcAdvances s t len) (h64 : s.is64 = true)
    (hp : s.ripPast = false) (hl : s.pc + len ≤ 2 ^ 64) : t.pc = s.pc + len := by
  obtain ⟨h1, h2⟩ := h
  rw [pc_of_not_past hp] at hl ⊢
  have hr : t.rip.toNat = (s.rip.toNat + len) % 2 ^ 64 := by
    rw [h1]; simp [nextPc, h64]
  have h2' : t.ripPast = decide (2 ^ 64 ≤ s.rip.toNat + len) := by
    rw [h2]; simp [nextPast, h64, pc_of_not_past hp]
  unfold State.pc
  rw [hr, h2']
  by_cases ht : 2 ^ 64 ≤ s.rip.toNat + len
  · have : s.rip.toNat + len = 2 ^ 64 := le_antisymm hl ht
    simp [this]
  · simp only [ht, decide_false, Bool.false_eq_true, if_false, Nat.add_zero]
    exact Nat.mod_eq_of_lt (Nat.lt_of_not_le ht)

/-! ## Runs -/

/-- A run that is not over goes on from the next state of the step. -/
theorem run_succ_of_next {stop n : Nat} {s t : State} (hp : s.pc ≠ stop) (h : step s = .next t) :
    run stop (n + 1) s = run stop n t := by
  simp [run, hp, h]

theorem run_at_stop {stop n : Nat} {s : State} (hp : s.pc = stop) : run stop n s = .finished s := by
  cases n <;> simp [run, hp]

@[simp] theorem programBytes_cons (i : Instr) (p : List Instr) : programBytes (i :: p) = encode i ++ programBytes p := rfl

end Sys2Proof.Machine
end

