-- ==== Sys2Proof/Tests/Slice0.lean ====
section
/-! SUPPORT. Our own tests, each on one step or one operation, with the vector of the spec it comes from; the smoke test of
`WellFormed`; and for every obligation with hypotheses a state and operands that meet them. -/

namespace Sys2Proof.Tests

open Sys2Proof.Machine

-- the kernel evaluates many small tests here: one after another, so that few threads are alive at once
set_option Elab.async false

/-! ## Helpers -/

def lanes (l : List Lane) : Zmm := ofLanes fun j => l.getD j 0

def isNext : Result → Bool
  | .next _ => true
  | _ => false

/-- Register 1, `MXCSR` and the pc of a next state. -/
def seen : Result → Option (List Lane × BitVec 32 × Word64)
  | .next t => some ((List.range 8).map (laneOf (t.readZmm 1)), t.mxcsr, t.rip)
  | _ => none

/-- The exception of a fault, with the `MXCSR`, `CR2` and pc it leaves. -/
def faulted : Result → Option (Exc × BitVec 32 × Word64 × Word64)
  | .fault (.exception e t) => some (e, t.mxcsr, t.cr2, t.rip)
  | _ => none

theorem next_of {r : Result} (h : isNext r = true) : ∃ t, r = .next t := by
  cases r with
  | next t => exact ⟨t, rfl⟩
  | fault f => cases h
  | refused q => cases h

theorem fetch_stop_none {s : State} {m : Nat} (h : ((List.range m).all fun n => (fetchStop s n).isNone) = true) (n : Nat) (hn : n < m) :
    fetchStop s n = none :=
  Option.isNone_iff_eq_none.mp (List.all_eq_true.mp h n (List.mem_range.mpr hn))

theorem fault_of {r : Result} (h : (faulted r).isSome = true) : ∃ e u, r = .fault (.exception e u) := by
  cases r with
  | next t => cases h
  | fault f =>
    cases f with
    | exception e u => exact ⟨e, u, rfl⟩
    | unmapped pa => cases h
    | deliveryFailed e u => cases h
  | refused q => cases h

def completesB (s : State) (o : FormOp) : Bool := formEnabled s o && !s.cr0TS && (operandStop s o).isNone && fpQuiet s o

theorem completes_of {s : State} {o : FormOp} (h : completesB s o = true) : Completes s o := by
  simp only [completesB, Bool.and_eq_true, Bool.not_eq_true', Option.isNone_iff_eq_none] at h
  exact ⟨h.1.1.1, h.1.1.2, h.1.2, h.2⟩

theorem stop_none_of {s : State} {o : FormOp} (h : (operandStop s o).isNone = true) : operandStop s o = none :=
  Option.isNone_iff_eq_none.mp h

/-- The launch state of the spec's vectors, all registers zero: `pc = 401000H`, `CR4.OSXMMEXCPT = 1`, `CPL 3`. -/
def start : State :=
  { State.reset.launched with
    cr4 := 0x40400
    rip := 0x401000
    cs := { State.reset.cs with selector := 0x33 } }

/-- State A of the spec's vectors: registers 1 to 3, `RAX = 10000H`, `RBX = 10100H`. -/
def stateA : State :=
  { start with
    zmm := ((start.zmm.set 1 (lanes [0x4000000000000000, 0x4008000000000000, 0x4010000000000000, 0x4014000000000000,
        0x4018000000000000, 0x401C000000000000, 0x4020000000000000, 0x4022000000000000])).set 2
      (lanes [0x4024000000000000, 0x4059000000000000, 0x408F400000000000, 0x40C3880000000000, 0x3FE0000000000000,
        0x3FD0000000000000, 0xBFF0000000000000, 0xC000000000000000])).set 3
      (lanes [0x4014000000000000, 0x401C000000000000, 0x4026000000000000, 0x402A000000000000, 0x4031000000000000,
        0x4033000000000000, 0x4037000000000000, 0x403D000000000000])
    gpr := (start.gpr.set 0 0x10000).set 3 0x10100 }

/-- Place bytes from a physical address up. -/
def put (s : State) (a : Nat) : List Byte → State
  | [] => s
  | b :: bs => put { s with mem := memWrite s.mem a b } (a + 1) bs

/-- Place a qword. -/
def putQ (s : State) (a : Nat) (q : Lane) : State :=
  put s a ((List.range 8).map fun n => q.extractLsb' (8 * n) 8)

/-- The operand M of the spec's vectors: eight qwords at `10000H`, and 0.5 at `10100H`. -/
def stateM : State :=
  putQ (putQ (putQ (putQ (putQ (putQ (putQ (putQ (putQ stateA 0x10000 0x3FF8000000000000) 0x10008 0xC004000000000000)
    0x10010 0x400C000000000000) 0x10018 0xC012000000000000) 0x10020 0x4016000000000000) 0x10028 0xC01A000000000000)
    0x10030 0x401E000000000000) 0x10038 0xC021000000000000) 0x10100 0x3FE0000000000000

def withK (s : State) (r : KReg) (v : BitVec 64) : State := { s with k := s.k.set r.toNat v (by omega) }

/-- One step on an instruction's bytes at the pc. -/
def stepOn (s : State) (bs : List Byte) : Result := step (put s s.rip.toNat bs)

/-- Every page accessible but page `11H`, which is absent. -/
def absentPage : Config :=
  { Config.default with
    translation :=
      { rows := []
        pages := [(0x11, { frame := 0, present := false, reserved := false, user := true, noExec := false, keyDenied := false, sgxDenied := false })]
        unlisted := .identity } }

/-- State A with the first four qwords of M at `10FE0H`, below an absent page. -/
def statePage : State :=
  { putQ (putQ (putQ (putQ stateA 0x10FE0 0x3FF8000000000000) 0x10FE8 0xC004000000000000)
      0x10FF0 0x400C000000000000) 0x10FF8 0xC012000000000000 with
    cfg := absentPage
    gpr := stateA.gpr.set 0 0x10FE0 }

/-- 32-bit protected mode with flat segments of 128 KBytes. -/
def state32 : State :=
  { stateM with
    mode := .mode32
    cs := { selector := 0x33, base := 0, limit := 0x1FFFF, readable := true }
    ds := { selector := 0x2B, base := 0, limit := 0x1FFFF, readable := true }
    ss := { selector := 0x2B, base := 0, limit := 0x1FFFF, readable := true } }

/-! ## WellFormed refuses what has no encoding -/

theorem test_wf_refuses_base_needs_sib :
    Instr.wf .mode64 .as512
      (.vfmsubadd132pdXmmVex [] 1 2 (.mem (.base 12 .none))) = false := by decide
theorem test_wf_refuses_base_without_disp :
    Instr.wf .mode64 .as512
      (.vfmsubadd132pdXmmVex [] 1 2 (.mem (.base 13 .none))) = false := by decide
theorem test_wf_refuses_sib_base_without_disp :
    Instr.wf .mode64 .as512
      (.vfmsubadd132pdXmmVex [] 1 2 (.mem (.sib 5 none 0 .none))) = false := by decide
theorem test_wf_refuses_rsp_index :
    Instr.wf .mode64 .as512
      (.vfmsubadd132pdXmmVex [] 1 2 (.mem (.sib 0 (some 4) 0 .none))) = false := by decide
theorem test_wf_refuses_rsp_index_no_base :
    Instr.wf .mode64 .as512
      (.vfmsubadd132pdXmmVex [] 1 2 (.mem (.sibNoBase (some 4) 0 0))) = false := by decide
theorem test_wf_refuses_zeroing_without_mask :
    Instr.wf .mode64 .as512
      (.vfmsubadd132pdXmmEvex [] { aaa := 0, z := true } 1 2 (.reg 3)) = false := by decide
theorem test_wf_refuses_rounding_on_xmm :
    Instr.wf .mode64 .as512
      (.vfmsubadd132pdXmmEvex [] { aaa := 0, z := false } 1 2 (.regB 3 0)) = false := by decide
theorem test_wf_refuses_literal_ymm_rc :
    Instr.wf .mode64 .literal
      (.vfmsubadd132pdYmmEvex [] { aaa := 0, z := false } 1 2 (.regB 3 0)) = false := by decide
theorem test_wf_refuses_literal_zmm_rc :
    Instr.wf .mode64 .literal
      (.vfmsubadd132pdZmmEvex [] { aaa := 0, z := false } 1 2 (.regB 3 1)) = false := by decide
theorem test_wf_refuses_vex_too_long :
    Instr.wf .mode64 .as512
      (.vfmsubadd132pdXmmVex (List.replicate 11 .addressSize) 1 2 (.reg 3)) = false := by decide
theorem test_wf_refuses_evex_too_long :
    Instr.wf .mode64 .as512
      (.vfmsubadd132pdZmmEvex (List.replicate 5 .addressSize) { aaa := 0, z := false } 1 2 (.mem (.sib 0 none 0 (.d32 0)))) = false := by decide
theorem test_wf_refuses_mode32_dest :
    Instr.wf .mode32 .as512
      (.vfmsubadd132pdXmmVex [] 8 2 (.reg 3)) = false := by decide
theorem test_wf_refuses_mode32_src2 :
    Instr.wf .mode32 .as512
      (.vfmsubadd132pdXmmEvex [] { aaa := 0, z := false } 1 16 (.reg 3)) = false := by decide
theorem test_wf_refuses_mode32_src3 :
    Instr.wf .mode32 .as512
      (.vfmsubadd132pdXmmVex [] 1 2 (.reg 9)) = false := by decide
theorem test_wf_refuses_mode32_base :
    Instr.wf .mode32 .as512
      (.vfmsubadd132pdXmmVex [] 1 2 (.mem (.base 8 .none))) = false := by decide
theorem test_wf_refuses_mode32_index :
    Instr.wf .mode32 .as512
      (.vfmsubadd132pdXmmVex [] 1 2 (.mem (.sib 0 (some 9) 0 .none))) = false := by decide
theorem test_wf_refuses_mode32_16bit_address :
    Instr.wf .mode32 .as512
      (.vfmsubadd132pdXmmVex [.addressSize] 1 2 (.mem (.base 0 .none))) = false := by decide
theorem test_wf_refuses_legacy_mode :
    Instr.wf .legacy .as512
      (.vfmsubadd132pdXmmVex [] 1 2 (.reg 3)) = false := by decide

/-! ## Decoding (the lines X of the spec; R79), and the encoder back -/

def decodes (bs : List Byte) (i : Instr) : Bool :=
  decode .mode64 .as512 bs = .instr i [] && encode i = bs && i.wf .mode64 .as512

theorem test_decode_X7 : decodes [0xC4, 0xE2, 0xE9, 0x97, 0x08]
    (.vfmsubadd132pdXmmVex [] 1 2 (.mem (.base 0 .none))) = true := by decide +kernel
theorem test_decode_X11 : decodes [0xC4, 0xE2, 0xE9, 0xA7, 0x0D, 0x10, 0x00, 0x00, 0x00]
    (.vfmsubadd213pdXmmVex [] 1 2 (.mem (.ripRel 0x10))) = true := by decide +kernel
theorem test_decode_X12 : decodes [0xC4, 0xE2, 0xE9, 0xB7, 0x4C, 0x24, 0x10]
    (.vfmsubadd231pdXmmVex [] 1 2 (.mem (.sib 4 none 0 (.d8 0x10)))) = true := by decide +kernel
theorem test_decode_X13 : decodes [0xC4, 0xE2, 0xED, 0x97, 0x4D, 0xE0]
    (.vfmsubadd132pdYmmVex [] 1 2 (.mem (.base 5 (.d8 0xE0)))) = true := by decide +kernel
theorem test_decode_X5 : decodes [0xC4, 0xE2, 0xED, 0xA7, 0xCB]
    (.vfmsubadd213pdYmmVex [] 1 2 (.reg 3)) = true := by decide +kernel
theorem test_decode_X9 : decodes [0xC4, 0x02, 0xAD, 0xB7, 0x4C, 0xE3, 0x40]
    (.vfmsubadd231pdYmmVex [] 9 10 (.mem (.sib 11 (some 12) 3 (.d8 0x40)))) = true := by decide +kernel
theorem test_decode_X21 : decodes [0x62, 0xF2, 0xED, 0x89, 0x97, 0xCB]
    (.vfmsubadd132pdXmmEvex [] { aaa := 1, z := true } 1 2 (.reg 3)) = true := by decide +kernel
theorem test_decode_X24 : decodes [0x62, 0xF2, 0xED, 0x18, 0xA7, 0x48, 0x01]
    (.vfmsubadd213pdXmmEvex [] { aaa := 0, z := false } 1 2 (.bcst (.base 0 (.d8 1)))) = true := by decide +kernel
theorem test_decode_X35 : decodes [0x62, 0xE2, 0xED, 0x08, 0xB7, 0xC3]
    (.vfmsubadd231pdXmmEvex [] { aaa := 0, z := false } 16 2 (.reg 3)) = true := by decide +kernel
theorem test_decode_X25 : decodes [0x62, 0xF2, 0xED, 0x2A, 0x97, 0x48, 0x01]
    (.vfmsubadd132pdYmmEvex [] { aaa := 2, z := false } 1 2 (.mem (.base 0 (.d8 1)))) = true := by decide +kernel
theorem test_decode_X18 : decodes [0x62, 0xF2, 0xED, 0x28, 0xA7, 0xCB]
    (.vfmsubadd213pdYmmEvex [] { aaa := 0, z := false } 1 2 (.reg 3)) = true := by decide +kernel
theorem test_decode_X22 : decodes [0x62, 0xF2, 0xED, 0xA9, 0xB7, 0xCB]
    (.vfmsubadd231pdYmmEvex [] { aaa := 1, z := true } 1 2 (.reg 3)) = true := by decide +kernel
theorem test_decode_X36 : decodes [0x62, 0x22, 0x8D, 0x47, 0x97, 0xC9]
    (.vfmsubadd132pdZmmEvex [] { aaa := 7, z := false } 25 30 (.reg 17)) = true := by decide +kernel
theorem test_decode_X40 : decodes [0x62, 0xF2, 0xED, 0x58, 0xA7, 0xCB]
    (.vfmsubadd213pdZmmEvex [] { aaa := 0, z := false } 1 2 (.regB 3 0b10)) = true := by decide +kernel
theorem test_decode_X34 : decodes [0x62, 0xF2, 0xF5, 0x48, 0xB7, 0x05, 0x00, 0x01, 0x00, 0x00]
    (.vfmsubadd231pdZmmEvex [] { aaa := 0, z := false } 0 1 (.mem (.ripRel 0x100))) = true := by decide +kernel
theorem test_decode_X15 : decodes [0x64, 0xC4, 0xE2, 0xE9, 0xA7, 0x08]
    (.vfmsubadd213pdXmmVex [.seg .fs] 1 2 (.mem (.base 0 .none))) = true := by decide +kernel
theorem test_decode_I1 : decode .mode64 .as512 [0x62, 0xF2, 0xED, 0xC8, 0x97, 0xCB] = .undefined := by decide +kernel
theorem test_decode_I2 : decode .mode64 .as512 [0x62, 0xF2, 0xED, 0x68, 0x97, 0xCB] = .undefined := by decide +kernel
theorem test_decode_I4 : decode .mode64 .as512 [0xF0, 0xC4, 0xE2, 0xE9, 0x97, 0xCB] = .undefined := by decide +kernel
theorem test_decode_I8 : decode .mode64 .as512 [0x62, 0xF6, 0xED, 0x48, 0x97, 0xCB] = .undefined := by decide +kernel
theorem test_decode_I10 : decode .mode64 .as512 [0x62, 0xF2, 0xE9, 0x48, 0x97, 0xCB] = .undefined := by decide +kernel
theorem test_decode_I11 : decode .mode64 .as512 [0xC4, 0xE2, 0x69, 0x97, 0xCB] = .notInSpec := by decide +kernel
theorem test_decode_I12 : decode .mode64 .as512 [0xC4, 0xE2, 0xE9, 0x98, 0xCB] = .notInSpec := by decide +kernel
/-- R69: outside 64-bit mode `C4H` with a next byte whose bits 7:6 are not `11` is `LES`. -/
theorem test_decode_les : decode .mode32 .as512 [0xC4, 0x62, 0xE9, 0x97, 0xCB] = .notInSpec := by decide +kernel
/-- R69: an EVEX encoding that asks for a register above 7 in `Mode32`. -/
theorem test_decode_mode32_register : decode .mode32 .as512 [0x62, 0xE2, 0xED, 0x08, 0x97, 0xCB] = .mode32Register := by
  decide +kernel
/-- D4: under `literal` the byte `18H` is a 128-bit form. -/
theorem test_decode_literal : decode .mode64 .literal [0x62, 0xF2, 0xED, 0x18, 0x97, 0xCB] =
    .instr (.vfmsubadd132pdXmmEvex [] { aaa := 0, z := false } 1 2 (.regB 3 0)) [] := by decide +kernel
/-- The host's word for row T1, `C4 02 81 97` with the low byte first. -/
theorem test_table_word : decodeTableWord 32 0x978102C4 = some (.vfmsubadd132pdXmmVex [] 8 15 (.mem (.base 8 .none))) := by
  decide +kernel

/-! ## One step of each form (the vectors V of the spec; T9 and T11 by hand from V3, V6 and V11) -/

theorem test_V1 : seen (stepOn stateA [0xC4, 0xE2, 0xE9, 0x97, 0xCB]) =
    some ([0x4034000000000000, 0xC053C00000000000, 0x0000000000000000, 0x0000000000000000,
      0x0000000000000000, 0x0000000000000000, 0x0000000000000000, 0x0000000000000000], 0x1F80, 0x401005) := by
  decide +kernel
theorem test_V2 : seen (stepOn stateA [0xC4, 0xE2, 0xE9, 0xA7, 0xCB]) =
    some ([0x4039000000000000, 0x4072500000000000, 0x0000000000000000, 0x0000000000000000,
      0x0000000000000000, 0x0000000000000000, 0x0000000000000000, 0x0000000000000000], 0x1F80, 0x401005) := by
  decide +kernel
theorem test_V3 : seen (stepOn stateA [0xC4, 0xE2, 0xE9, 0xB7, 0xCB]) =
    some ([0x404A000000000000, 0x4085C80000000000, 0x0000000000000000, 0x0000000000000000,
      0x0000000000000000, 0x0000000000000000, 0x0000000000000000, 0x0000000000000000], 0x1F80, 0x401005) := by
  decide +kernel
theorem test_V4 : seen (stepOn stateA [0xC4, 0xE2, 0xED, 0x97, 0xCB]) =
    some ([0x4034000000000000, 0xC053C00000000000, 0x4090500000000000, 0xC0C3678000000000,
      0x0000000000000000, 0x0000000000000000, 0x0000000000000000, 0x0000000000000000], 0x1F80, 0x401005) := by
  decide +kernel
theorem test_V5 : seen (stepOn stateM [0xC4, 0xE2, 0xED, 0xA7, 0x08]) =
    some ([0x4035800000000000, 0x4072E80000000000, 0x40AF470000000000, 0x40E86A9000000000,
      0x0000000000000000, 0x0000000000000000, 0x0000000000000000, 0x0000000000000000], 0x1F80, 0x401005) := by
  decide +kernel
theorem test_V6 : seen (stepOn stateA [0xC4, 0xE2, 0xED, 0xB7, 0xCB]) =
    some ([0x404A000000000000, 0x4085C80000000000, 0x40C57E0000000000, 0x40FFBCB000000000,
      0x0000000000000000, 0x0000000000000000, 0x0000000000000000, 0x0000000000000000], 0x1F80, 0x401005) := by
  decide +kernel
theorem test_V7 : seen (stepOn (withK stateA 1 0x02) [0x62, 0xF2, 0xED, 0x09, 0x97, 0xCB]) =
    some ([0x4000000000000000, 0xC053C00000000000, 0x0000000000000000, 0x0000000000000000,
      0x0000000000000000, 0x0000000000000000, 0x0000000000000000, 0x0000000000000000], 0x1F80, 0x401006) := by
  decide +kernel
theorem test_V8 : seen (stepOn stateM [0x62, 0xF2, 0xED, 0x18, 0xA7, 0x48, 0x01]) =
    some ([0x4031800000000000, 0x4072E80000000000, 0x0000000000000000, 0x0000000000000000,
      0x0000000000000000, 0x0000000000000000, 0x0000000000000000, 0x0000000000000000], 0x1F80, 0x401007) := by
  decide +kernel
theorem test_T9 : seen (stepOn stateA [0x62, 0xF2, 0xED, 0x08, 0xB7, 0xCB]) =
    some ([0x404A000000000000, 0x4085C80000000000, 0x0000000000000000, 0x0000000000000000,
      0x0000000000000000, 0x0000000000000000, 0x0000000000000000, 0x0000000000000000], 0x1F80, 0x401006) := by
  decide +kernel
theorem test_T11 : seen (stepOn stateA [0x62, 0xF2, 0xED, 0x28, 0xA7, 0xCB]) =
    some ([0x4039000000000000, 0x4072500000000000, 0x40AF560000000000, 0x40E8686000000000,
      0x0000000000000000, 0x0000000000000000, 0x0000000000000000, 0x0000000000000000], 0x1F80, 0x401006) := by
  decide +kernel
theorem test_V9 : seen (stepOn (withK stateA 1 0x06) [0x62, 0xF2, 0xED, 0xA9, 0xB7, 0xCB]) =
    some ([0x0000000000000000, 0x4085C80000000000, 0x40C57E0000000000, 0x0000000000000000,
      0x0000000000000000, 0x0000000000000000, 0x0000000000000000, 0x0000000000000000], 0x1F80, 0x401006) := by
  decide +kernel
theorem test_V10 : seen (stepOn stateA [0x62, 0xF2, 0xED, 0x48, 0x97, 0xCB]) =
    some ([0x4034000000000000, 0xC053C00000000000, 0x4090500000000000, 0xC0C3678000000000,
      0x4059A00000000000, 0x4060980000000000, 0x4066E00000000000, 0x4070700000000000], 0x1F80, 0x401006) := by
  decide +kernel
theorem test_V11 : seen (stepOn (withK stateA 1 0xA5) [0x62, 0xF2, 0xED, 0xC9, 0xA7, 0xCB]) =
    some ([0x4039000000000000, 0x0000000000000000, 0x40AF560000000000, 0x0000000000000000,
      0x0000000000000000, 0xC031400000000000, 0x0000000000000000, 0xC047800000000000], 0x1F80, 0x401006) := by
  decide +kernel
theorem test_V13 : seen (stepOn (withK stateM 3 0xF0) [0x62, 0xF2, 0xED, 0x5B, 0xB7, 0x0B]) =
    some ([0x4000000000000000, 0x4008000000000000, 0x4010000000000000, 0x4014000000000000,
      0x4019000000000000, 0xC01B800000000000, 0x401E000000000000, 0xC024000000000000], 0x1F80, 0x401006) := by
  decide +kernel
theorem test_V14 : seen (stepOn (withK stateM 2 0x09) [0x62, 0xF2, 0xED, 0x2A, 0x97, 0x48, 0x01]) =
    some ([0x4035000000000000, 0x4008000000000000, 0x4010000000000000, 0xC0C39D4000000000,
      0x0000000000000000, 0x0000000000000000, 0x0000000000000000, 0x0000000000000000], 0x1F80, 0x401007) := by
  decide +kernel
theorem test_V16 : seen (stepOn (withK stateA 1 0xFFFD) [0x62, 0xF2, 0xED, 0x09, 0x97, 0xCB]) =
    some ([0x4034000000000000, 0x4008000000000000, 0x0000000000000000, 0x0000000000000000,
      0x0000000000000000, 0x0000000000000000, 0x0000000000000000, 0x0000000000000000], 0x1F80, 0x401006) := by
  decide +kernel
/-- The registers of V17: 1.0, and 1 + 2^-52 twice. -/
def stateV17 : State :=
  { start with
    mxcsr := 0x5F80
    zmm := ((start.zmm.set 1 (Vector.replicate 8 0x3FF0000000000000)).set 2 (Vector.replicate 8 0x3FF0000000000001)).set 3
      (Vector.replicate 8 0x3FF0000000000001) }

theorem test_V17 : seen (stepOn stateV17 [0x62, 0xF2, 0xED, 0x78, 0xB7, 0xCB]) =
    some ([0x4000000000000001, 0x3CC0000000000000, 0x4000000000000001, 0x3CC0000000000000,
      0x4000000000000001, 0x3CC0000000000000, 0x4000000000000001, 0x3CC0000000000000], 0x5F80, 0x401006) := by
  decide +kernel

/-! ## Lane arithmetic (the lines S of the spec) -/

/-- `FMA64` under an `MXCSR` value, all masked. -/
def fmaAt (mx : BitVec 32) (a b c : Lane) (neg : Bool) : Lane × FpFlags :=
  fma64 false (mx.extractLsb' 13 2) (mx.getLsbD 6) (mx.getLsbD 15) true true a b c neg

theorem test_S14 : fmaAt 0x1F80 0x7FF8000000000123 0x3FF0000000000000 0x7FF0000000000ABC false = (0x7FF8000000000123, 1) := by decide +kernel
theorem test_S15 : fmaAt 0x1F80 0x3FF0000000000000 0x3FF0000000000000 0x7FF8000000000123 true = (0x7FF8000000000123, 0) := by decide +kernel
theorem test_S21 : fmaAt 0x1F80 0x7FF0000000000000 0x3FF0000000000000 0x7FF0000000000000 true = (0xFFF8000000000000, 1) := by decide +kernel
theorem test_S29 : fmaAt 0x1FC0 0x7FF0000000000000 0x0000000000000001 0x3FF0000000000000 false = (0xFFF8000000000000, 1) := by decide +kernel
theorem test_S36 : fmaAt 0x3F80 0x0000000000000000 0x3FF0000000000000 0x8000000000000000 false = (0x8000000000000000, 0) := by decide +kernel
theorem test_S44 : fmaAt 0x7F80 0x7FEFFFFFFFFFFFFF 0x3FF0000000000000 0x7FEFFFFFFFFFFFFF false = (0x7FEFFFFFFFFFFFFF, 40) := by decide +kernel
theorem test_S50 : fmaAt 0x7F80 0x7FEFFFFFFFFFFFFF 0x3FF0000000000000 0x7C90000000000000 false = (0x7FEFFFFFFFFFFFFF, 32) := by decide +kernel
theorem test_S54 : fmaAt 0x1F80 0x3FEFFFFFFFFFFFFF 0x0010000000000000 0x0000000000000000 false = (0x0010000000000000, 48) := by decide +kernel
theorem test_S59 : fmaAt 0x5F80 0x0000000000000001 0x3FE0000000000000 0x0000000000000000 false = (0x0000000000000001, 50) := by decide +kernel
theorem test_S64 : fmaAt 0x9F80 0x0000000000000001 0x3FF0000000000000 0x0000000000000001 false = (0x0000000000000000, 50) := by decide +kernel
theorem test_S66 : fmaAt 0x1F80 0x3FEFFFFFFFFFFFFE 0x0010000000000001 0x0000000000000000 false = (0x0010000000000000, 32) := by decide +kernel
theorem test_S68 : fmaAt 0x7F80 0x3FEFFFFFFFFFFFFE 0x0010000000000001 0x0000000000000000 false = (0x000FFFFFFFFFFFFF, 48) := by decide +kernel
theorem test_S77 : fmaAt 0x3F80 0xBFF0000000000001 0x3FF0000000000001 0x3FF0000000000000 false = (0xBCC0000000000001, 32) := by decide +kernel

/-! ## Faults (the vectors E and M of the spec) -/

/-- Data set A of the spec: lane 0 inexact, lane 2 with a denormal, lane 3 with an SNaN. -/
def dataA : State :=
  { start with
    zmm := ((start.zmm.set 1 (lanes [0x3FF0000000000001, 0x4008000000000000, 0x0000000000000001, 0x7FF0000000000001,
        0x4018000000000000, 0x401C000000000000, 0x4020000000000000, 0x4022000000000000])).set 2
      (Vector.replicate 8 0x3FF0000000000000)).set 3
      (lanes [0x3FF0000000000001, 0x4008000000000000, 0x4008000000000000, 0x4008000000000000, 0x4008000000000000,
        0x4008000000000000, 0x4008000000000000, 0x4008000000000000]) }

theorem test_E1 : faulted (stepOn { dataA with mxcsr := 0x1F00 } [0x62, 0xF2, 0xED, 0x48, 0x97, 0xCB]) =
    some (.xm, 0x1F03, 0, 0x401000) := by decide +kernel
theorem test_E3 : faulted (stepOn { dataA with mxcsr := 0x0F80 } [0x62, 0xF2, 0xED, 0x48, 0x97, 0xCB]) =
    some (.xm, 0x0FA3, 0, 0x401000) := by decide +kernel
theorem test_E5 : (seen (stepOn (withK { dataA with mxcsr := 0x1F00 } 1 0xF7) [0x62, 0xF2, 0xED, 0x49, 0x97, 0xCB])).map (·.2) =
    some (0x1F22, 0x401006) := by decide +kernel
theorem test_E13 : (seen (stepOn { dataA with mxcsr := 0 } [0x62, 0xF2, 0xED, 0x78, 0x97, 0xCB])).map (·.2) =
    some (0, 0x401006) := by decide +kernel
theorem test_M1 : isNext (stepOn (withK statePage 1 0x0F) [0x62, 0xF2, 0xED, 0x49, 0x97, 0x08]) = true := by decide +kernel
theorem test_M3 : faulted (stepOn (withK statePage 1 0x80) [0x62, 0xF2, 0xED, 0x49, 0x97, 0x08]) =
    some (.pf 4, 0x1F80, 0x11018, 0x401000) := by decide +kernel
/-- Alignment checking on. -/
def checked (s : State) : State := { s with cr0 := s.cr0 ||| 0x40000, rflags := 0x40002 }

theorem test_M8 : faulted (stepOn (checked { statePage with gpr := stateA.gpr.set 0 0x10FF1 })
    [0x62, 0xF2, 0xED, 0x58, 0x97, 0x08]) = some (.ac, 0x1F80, 0, 0x401000) := by decide +kernel
theorem test_M10 : faulted (stepOn { stateA with gpr := stateA.gpr.set 0 0x800000000000 } [0x62, 0xF2, 0xED, 0x48, 0x97, 0x08]) =
    some (.gp, 0x1F80, 0, 0x401000) := by decide +kernel
theorem test_M11 : faulted (stepOn { stateA with gpr := stateA.gpr.set 5 0x800000000000 }
    [0x62, 0xF2, 0xED, 0x48, 0x97, 0x4D, 0x00]) = some (.ss, 0x1F80, 0, 0x401000) := by decide +kernel
/-- R41: an operand in the local APIC's page is refused. -/
theorem test_device_refused : (match stepOn { stateA with gpr := stateA.gpr.set 0 0xFEE00000 } [0xC4, 0xE2, 0xE9, 0x97, 0x08] with
    | .refused (.deviceOperand pa) => pa == 0xFEE00000
    | _ => false) = true := by decide +kernel
/-- R41, R49: eight qwords from 40H below the page up, all but the first masked off: no byte of the operand is in the device,
and one qword further up the last one is, though not needed. -/
theorem test_device_masked :
    let at' (a : Word64) := stepOn (withK { stateA with gpr := stateA.gpr.set 0 a } 1 1) [0x62, 0xF2, 0xED, 0x49, 0x97, 0x08]
    isNext (at' 0xFEDFFFC0) = true ∧
    (match at' 0xFEDFFFC8 with
      | .refused (.deviceOperand pa) => pa == 0xFEE00000
      | _ => false) = true := by decide +kernel

/-- R160: from reset the bytes at `FFFFFFF0H` are fetched, and none of the forms is there. -/
theorem test_reset_step : (match step State.reset with
    | .refused .notInSpec => true
    | _ => false) = true := by decide +kernel

/-! ## Witnesses: states and operands that meet the hypotheses of the obligations -/

/-- A gate for #UD and #XM in a handler at `CPL 0`. -/
def gated : State :=
  { stateA with
    gates := [(0x60, { cs := { selector := 0x8, base := 0, limit := 0xFFFF, readable := true }, rip := 0x500000, ist := 0, interrupt := true })]
    rsp0 := 0x9000 }

theorem witness_DecodeEncodeRoundTrip :
    Instr.wf .mode64 .as512 (.vfmsubadd231pdZmmEvex [.seg .gs] { aaa := 5, z := true } 31 16 (.bcst (.sib 13 (some 12) 2 (.d8 0x80)))) =
      true ∧
    Instr.wf .mode32 .literal (.vfmsubadd132pdYmmEvex [] { aaa := 0, z := false } 7 0 (.regB 7 1)) = true := by decide

theorem witness_DecodeConsumesLength :
    decode .mode64 .as512 [0x64, 0xC4, 0xE2, 0xE9, 0xA7, 0x08, 0x90] =
      .instr (.vfmsubadd213pdXmmVex [.seg .fs] 1 2 (.mem (.base 0 .none))) [0x90] := by decide +kernel

theorem witness_DecodedInstructionWellFormed :
    [0x64#8, 0xC4, 0xE2, 0xE9, 0xA7, 0x08, 0x90].length ≤ 15 ∧
    decode .mode64 .as512 [0x64, 0xC4, 0xE2, 0xE9, 0xA7, 0x08, 0x90] =
      .instr (.vfmsubadd213pdXmmVex [.seg .fs] 1 2 (.mem (.base 0 .none))) [0x90] := by decide +kernel

/-- The bytes of I8, I10, I1 and I2, of `{rz-sae}` and of X1 meet the clauses one after another. -/
theorem witness_ReservedEvexFieldsUndefined :
    (0xF6#8).extractLsb' 2 2 ≠ 0b00#2 ∧ (0xE9#8).extractLsb' 2 1 ≠ 1#1 ∧
    ((0xF2#8).extractLsb' 0 2 = 0b10#2 ∧ (0xED#8).extractLsb' 7 1 = 1#1 ∧ (0xED#8).extractLsb' 0 2 = 0b01#2) ∧
    ((0xC8#8).extractLsb' 7 1 = 1#1 ∧ (0xC8#8).extractLsb' 0 3 = 0#3) ∧
    ((0x68#8).extractLsb' 5 2 = 0b11#2 ∧ ¬ ((0xCB#8).extractLsb' 6 2 = 0b11#2 ∧ (0x68#8).extractLsb' 4 1 = 1#1)) ∧
    ((0x78#8).extractLsb' 5 2 = 0b11#2 ∧ (0xCB#8).extractLsb' 6 2 = 0b11#2 ∧ (0x78#8).extractLsb' 4 1 = 1#1 ∧
      ¬ ((0x78#8).extractLsb' 7 1 = 1#1 ∧ (0x78#8).extractLsb' 0 3 = 0#3) ∧ (0xF2#8).extractLsb' 2 2 = 0b00#2 ∧
      (0xED#8).extractLsb' 2 1 = 1#1 ∧ (0xF2#8).extractLsb' 4 1 = 1#1 ∧ (0xED#8).extractLsb' 6 1 = 1#1 ∧
      (0x78#8).extractLsb' 3 1 = 1#1) ∧
    ((0xF2#8).extractLsb' 6 2 = 0b11#2 ∧ (0xE2#8).extractLsb' 6 2 = 0b11#2) ∧
    ((0xE2#8).extractLsb' 0 5 = 0b00010#5 ∧ (0xE9#8).extractLsb' 7 1 = 1#1 ∧ (0xE9#8).extractLsb' 0 2 = 0b01#2) ∧
    decode .mode64 .as512 (fetchWindow (put stateA 0x401000 [0x62, 0xF2, 0xED, 0xC8, 0x97, 0xCB]) maxLength 0).1 =
      .undefined := by decide +kernel

theorem witness_ForbiddenPrefixUndefined :
    Instr.wf .mode64 .as512 (.vfmsubadd132pdXmmVex [] 1 2 (.reg 3)) = true ∧
    (∀ b ∈ [0x2E#8, 0x48#8, 0x66#8], b ∈ [0x26#8, 0x2E#8, 0x36#8, 0x3E#8, 0x64#8, 0x65#8, 0x67#8, 0xF0#8, 0x66#8, 0xF2#8, 0xF3#8] ∨
      (DecodeMode.mode64 = .mode64 ∧ 0x40#8 ≤ b ∧ b ≤ 0x4F#8)) ∧
    (∃ b ∈ [0x2E#8, 0x48#8, 0x66#8], b ∈ [0xF0#8, 0x66#8, 0xF2#8, 0xF3#8] ∨
      (DecodeMode.mode64 = .mode64 ∧ 0x40#8 ≤ b ∧ b ≤ 0x4F#8)) := by decide

/-- The `P2` bytes `78H`, `08H`, `28H`, `48H` meet the four clauses. -/
theorem witness_EvexRegisterFormFields :
    (0xF2#8).extractLsb' 0 4 = 0b0010#4 ∧ (0xED#8).extractLsb' 7 1 = 1#1 ∧ (0xED#8).extractLsb' 0 3 = 0b101#3 ∧
    (0xCB#8).extractLsb' 6 2 = 0b11#2 ∧
    (∀ p2 ∈ [0x78#8, 0x08#8, 0x28#8, 0x48#8], ¬ (p2.extractLsb' 7 1 = 1#1 ∧ p2.extractLsb' 0 3 = 0#3)) ∧
    (0x78#8).getLsbD 4 = true ∧ (0x08#8).getLsbD 4 = false ∧ (0x08#8).extractLsb' 5 2 = 0b00#2 ∧
    (0x28#8).getLsbD 4 = false ∧ (0x28#8).extractLsb' 5 2 = 0b01#2 ∧ (0x48#8).getLsbD 4 = false ∧
    (0x48#8).extractLsb' 5 2 = 0b10#2 := by decide

/-! ### The step -/

/-- V1 in memory at the pc. -/
def codeV1 : State := put stateA 0x401000 [0xC4, 0xE2, 0xE9, 0x97, 0xCB]

/-- The same with every exception unmasked and an SNaN in lane 0 of register 1. -/
def codeSNaN : State := { codeV1 with mxcsr := 0, zmm := codeV1.zmm.set 1 (lanes [0x7FF0000000000001]) }

theorem witness_StepRunsDecodedInstruction :
    codeHits codeV1 = 0 ∧ codeV1.debugQuiet = true ∧
    decode codeV1.decodeMode codeV1.cfg.b1RegNon512 (fetchWindow codeV1 maxLength 0).1 =
      .instr (.vfmsubadd132pdXmmVex [] 1 2 (.reg 3)) (List.replicate 10 0) ∧
    isNext (exec (.vfmsubadd132pdXmmVex [] 1 2 (.reg 3)) codeV1) = true := by decide +kernel

theorem witness_StepRunsDecodedInstruction_fault :
    codeHits codeSNaN = 0 ∧ codeSNaN.debugQuiet = true ∧
    decode codeSNaN.decodeMode codeSNaN.cfg.b1RegNon512 (fetchWindow codeSNaN maxLength 0).1 =
      .instr (.vfmsubadd132pdXmmVex [] 1 2 (.reg 3)) (List.replicate 10 0) ∧
    (faulted (exec (.vfmsubadd132pdXmmVex [] 1 2 (.reg 3)) codeSNaN)).isSome = true := by decide +kernel

theorem witness_StoredInstructionRuns :
    Instr.wf codeV1.decodeMode codeV1.cfg.b1RegNon512 (.vfmsubadd132pdXmmVex [] 1 2 (.reg 3)) = true ∧ codeHits codeV1 = 0 ∧
    ∀ n : Fin 5, (fetchStop codeV1 n).isNone = true ∧
      fetchByte codeV1 n = (encode (.vfmsubadd132pdXmmVex [] 1 2 (.reg 3))).getD n 0 := by decide +kernel

theorem inv_of_plain {s : State} (hm : Memory.wf s.mem = true) (hx : s.mxcsr.extractLsb' 16 16 = 0#16)
    (hc : s.cfg = Config.default) (h64 : s.is64 = true) (hp : s.ripPast = false) : Inv s :=
  ⟨hm, hx, fun h => (by rw [hc] at h; cases h), fun h => (by rw [hc] at h; cases h), fun h => (by rw [h64] at h; cases h),
    fun h => (by rw [hp] at h; cases h)⟩

theorem witness_StepKeepsInvariant : Inv codeV1 ∧ ∃ t, step codeV1 = .next t :=
  ⟨inv_of_plain (by decide +kernel) (by decide +kernel) rfl (by decide +kernel) rfl, next_of (by decide +kernel)⟩

/-- A completed form, and an exception delivered: the bytes of I1 are #UD, and a gate is present for it. -/
theorem witness_StepKeepsControlState :
    (∃ t, step codeV1 = .next t) ∧ ∃ t, stepOn gated [0x62, 0xF2, 0xED, 0xC8, 0x97, 0xCB] = .next t :=
  ⟨next_of (by decide +kernel), next_of (by decide +kernel)⟩

theorem witness_StepWithoutGatesWritesNoMemory : codeV1.gates = [] ∧ ∃ t, step codeV1 = .next t :=
  ⟨rfl, next_of (by decide +kernel)⟩

/-- R52: eleven `67H` in front of a form of 5 bytes, in 64-bit mode, in `Mode32` and in real-address mode. -/
theorem witness_OverlongInstructionFaults :
    let pre := List.replicate 11 0x67#8
    let i := Instr.vfmsubadd132pdXmmVex [] 1 2 (.reg 3)
    (∀ b ∈ pre, b ∈ [0x26#8, 0x2E#8, 0x36#8, 0x3E#8, 0x64#8, 0x65#8, 0x67#8, 0xF0#8, 0x66#8, 0xF2#8, 0xF3#8]) ∧
    15 < (pre ++ encode i).length ∧ memOperand? i.formOp = none ∧
    ∀ s ∈ [put stateA 0x401000 (pre ++ encode i), put { state32 with rip := 0x1000 } 0x1000 (pre ++ encode i),
        put { state32 with rip := 0x1000, cr0 := 0x60000010 } 0x1000 (pre ++ encode i)],
      s.debugQuiet = true ∧ i.wf (if s.decodeMode = .mode64 then .mode64 else .mode32) s.cfg.b1RegNon512 = true ∧
      ∀ n : Fin 16, (fetchStop s n).isNone = true ∧ fetchByte s n = (pre ++ encode i).getD n 0 := by decide +kernel

/-- Fifteen `66H` and then `90H`; and `C4H` with a map that is no form's. -/
theorem witness_OverlongInstructionFaults_refused :
    (let s := put stateA 0x401000 (List.replicate 15 0x66 ++ [0x90])
     s.debugQuiet = true ∧ (∀ n : Fin 16, (fetchStop s n).isNone = true) ∧
       decode s.decodeMode s.cfg.b1RegNon512 ((List.range 16).map (fetchByte s)) = .notInSpec) ∧
    (let s := put stateA 0x401000 [0xC4, 0xE1, 0xE9, 0x97]
     s.debugQuiet = true ∧ (∀ n : Fin 4, (fetchStop s n).isNone = true) ∧
       decode s.decodeMode s.cfg.b1RegNon512 ((List.range 4).map (fetchByte s)) = .notInSpec) := by decide +kernel

/-- Every page accessible, but a fetch at `CPL 3` from page `401H` is #GP: a `Translate` that a page's facts cannot say. -/
def rowFault : Config :=
  { Config.default with
    translation :=
      { rows := [{ first := 0x401000, size := 0x1000, access := .fetch, cpl := 3, answer := .fault .gp 0 }]
        pages := []
        unlisted := .identity } }

/-- The hypotheses of `FetchFaults` at byte `k`. -/
def fetchReached (s : State) (k : Nat) : Bool :=
  s.debugQuiet && (List.range k).all (fun n => (fetchStop s n).isNone) &&
    decide (decode s.decodeMode s.cfg.b1RegNon512 ((List.range k).map (fetchByte s)) = .truncated)

/-- A pc that is not canonical; a form past the top; one past the code limit of `Mode32`; one that straddles into an absent
page (R123 (c)); a `Translate` that answers #GP; and fifteen prefixes below an absent page (R147 rows 2 and 3). -/
theorem witness_FetchFaults :
    (let s := { stateA with rip := 0x800000000000 }
     s.is64 = true ∧ fetchReached s 0 = true ∧ s.canonical (s.rip + BitVec.ofNat 64 0) = false) ∧
    (let s := put { stateA with rip := 0xFFFFFFFFFFFFFFFE } 0xFFFFFFFFFFFFFFFE [0xC4, 0xE2]
     s.is64 = true ∧ fetchReached s 2 = true ∧ 2 ^ 64 ≤ s.pc + 2) ∧
    (let s := put { state32 with rip := 0x1000, cs := { state32.cs with limit := 0x1002 } } 0x1000 [0xC4, 0xE2, 0xE9]
     s.is64 = false ∧ fetchReached s 3 = true ∧ s.cs.limit.toNat < s.rip.toNat + 3) ∧
    (let s := put { statePage with rip := 0x10FFE } 0x10FFE [0xC4, 0xE2]
     s.is64 = true ∧ fetchReached s 2 = true ∧ s.pc + 2 < 2 ^ 64 ∧ s.canonical (s.rip + BitVec.ofNat 64 2) = true ∧
       s.translate .fetch s.cpl (codeAddress s 2) = .fault (.pf 0x14) 0x11000) ∧
    (let s := { stateA with cfg := rowFault }
     s.is64 = true ∧ fetchReached s 0 = true ∧ s.translate .fetch s.cpl (codeAddress s 0) = .fault .gp 0) ∧
    (let s := put { statePage with rip := 0x10FF1 } 0x10FF1 (List.replicate 15 0x67)
     s.is64 = true ∧ fetchReached s 15 = true ∧ s.pc + 15 < 2 ^ 64 ∧ s.canonical (s.rip + BitVec.ofNat 64 15) = true ∧
       s.translate .fetch s.cpl (codeAddress s 15) = .fault (.pf 0x14) 0x11000) := by
  decide +kernel

/-! ### Completion of the fifteen forms: a register operand, a memory operand, a broadcast -/

theorem witness_Vex132Completes :
    Completes stateA (vexOp .f132 .v128 [] 1 2 (.reg 3)) ∧ Completes stateM (vexOp .f132 .v256 [] 1 2 (.mem (.base 0 .none))) :=
  ⟨completes_of (by decide +kernel), completes_of (by decide +kernel)⟩

theorem witness_Vex213Completes :
    Completes stateM (vexOp .f213 .v128 [] 1 2 (.mem (.base 0 .none))) ∧ Completes stateA (vexOp .f213 .v256 [] 1 2 (.reg 3)) :=
  ⟨completes_of (by decide +kernel), completes_of (by decide +kernel)⟩

theorem witness_Vex231Completes :
    Completes stateA (vexOp .f231 .v128 [] 1 2 (.reg 3)) ∧ Completes stateA (vexOp .f231 .v256 [] 1 2 (.reg 3)) :=
  ⟨completes_of (by decide +kernel), completes_of (by decide +kernel)⟩

theorem witness_Evex132Completes :
    Completes (withK stateA 1 2) (evexOp .f132 .v128 [] { aaa := 1, z := false } 1 2 (.reg 3)) ∧
    Completes (withK stateM 2 9) (evexOp .f132 .v256 [] { aaa := 2, z := false } 1 2 (.mem (.base 0 (.d8 1)))) ∧
    Completes stateA (evexOp .f132 .v512 [] { aaa := 0, z := false } 1 2 (.regB 3 3)) :=
  ⟨completes_of (by decide +kernel), completes_of (by decide +kernel), completes_of (by decide +kernel)⟩

theorem witness_Evex213Completes :
    Completes stateM (evexOp .f213 .v128 [] { aaa := 0, z := false } 1 2 (.bcst (.base 0 (.d8 1)))) ∧
    Completes stateA (evexOp .f213 .v256 [] { aaa := 0, z := false } 1 2 (.reg 3)) ∧
    Completes (withK stateA 1 0xA5) (evexOp .f213 .v512 [] { aaa := 1, z := true } 1 2 (.reg 3)) :=
  ⟨completes_of (by decide +kernel), completes_of (by decide +kernel), completes_of (by decide +kernel)⟩

theorem witness_Evex231Completes :
    Completes stateA (evexOp .f231 .v128 [] { aaa := 0, z := false } 1 2 (.reg 3)) ∧
    Completes (withK stateA 1 6) (evexOp .f231 .v256 [] { aaa := 1, z := true } 1 2 (.reg 3)) ∧
    Completes (withK stateM 3 0xF0) (evexOp .f231 .v512 [] { aaa := 3, z := false } 1 2 (.bcst (.base 3 .none))) :=
  ⟨completes_of (by decide +kernel), completes_of (by decide +kernel), completes_of (by decide +kernel)⟩

theorem witness_EmbeddedRoundingNeverFaults :
    let s := { dataA with mxcsr := 0 }
    s.cfg.saeUpdatesFlags = false ∧
    formEnabled s (evexInstr .f132 .v512 [] { aaa := 0, z := false } 1 2 (.regB 3 3)).formOp = true ∧ s.cr0TS = false := by
  decide +kernel

theorem witness_MaskedExceptionsComplete :
    let o := (Instr.vfmsubadd213pdYmmVex [] 1 2 (.mem (.base 0 .none))).formOp
    formEnabled stateM o = true ∧ stateM.cr0TS = false ∧ operandStop stateM o = none ∧ stateM.allMasked = true ∧
      suppressAll stateM o = false :=
  ⟨by decide +kernel, by decide +kernel, stop_none_of (by decide +kernel), by decide +kernel, by decide +kernel⟩

theorem witness_UpperBitsZeroed :
    (∃ t, exec (.vfmsubadd231pdYmmVex [] 1 2 (.reg 3)) stateA = .next t) ∧
    vecLanes (Instr.vfmsubadd231pdYmmVex [] 1 2 (.reg 3)).formOp.vl ≤ 4 ∧ 4 < maxLanes stateA.cfg ∧ 7 < maxLanes stateA.cfg :=
  ⟨next_of (by decide +kernel), by decide +kernel⟩

theorem witness_CompletedFormFrame : ∃ t, exec (.vfmsubadd231pdYmmVex [] 1 2 (.reg 3)) stateA = .next t :=
  next_of (by decide +kernel)

/-- An SNaN in the inactive lane 0 of register 1. -/
theorem witness_InactiveLanesAreSilent :
    let i := Instr.vfmsubadd132pdXmmEvex [] { aaa := 1, z := false } 1 2 (.reg 3)
    let s := withK stateA 1 2
    let s' := { s with zmm := s.zmm.set 1 (lanes [0x7FF0000000000001, 0x4008000000000000]) }
    (activeLane s i.formOp 0 = false ∧ activeLane s i.formOp 1 = true ∧
      ∀ r : Fin 32, laneOf (s'.readZmm (BitVec.ofFin r)) 1 = laneOf (s.readZmm (BitVec.ofFin r)) 1) ∧
    isNext (exec i s) = true ∧ isNext (exec i s') = true := by decide +kernel

/-- The third clause: an SNaN in the active lane faults in both states. -/
theorem witness_InactiveLanesAreSilent_fault :
    let i := Instr.vfmsubadd132pdXmmEvex [] { aaa := 1, z := false } 1 2 (.reg 3)
    let s := { withK stateA 1 2 with mxcsr := 0, zmm := stateA.zmm.set 1 (lanes [0, 0x7FF0000000000001]) }
    let s' := { s with zmm := s.zmm.set 1 (lanes [0x7FF0000000000001, 0x7FF0000000000001]) }
    (∀ r : Fin 32, laneOf (s'.readZmm (BitVec.ofFin r)) 1 = laneOf (s.readZmm (BitVec.ofFin r)) 1) ∧
    (faulted (exec i s)).isSome = true := by decide +kernel

/-- V16: bits 15:2 of the mask differ. -/
theorem witness_OnlyLowMaskBitsMatter :
    let i := Instr.vfmsubadd132pdXmmEvex [] { aaa := 1, z := false } 1 2 (.reg 3)
    (∀ j : Fin 2, ((withK stateA 1 0xFFFD).readK 1).getLsbD j = ((withK stateA 1 1).readK 1).getLsbD j) ∧
    isNext (exec i (withK stateA 1 1)) = true ∧
    (faulted (exec i { withK stateA 1 1 with mxcsr := 0, zmm := stateA.zmm.set 1 (lanes [0x7FF0000000000001]) })).isSome =
      true := by decide +kernel

theorem witness_LanesAreIndependent :
    let i := Instr.vfmsubadd132pdXmmVex [] 1 2 (.reg 3)
    let s' := { stateA with zmm := stateA.zmm.set 1 (lanes [0x3FF0000000000000, 0x4008000000000000]) }
    (∀ r : Fin 32, laneOf (s'.readZmm (BitVec.ofFin r)) 1 = laneOf (stateA.readZmm (BitVec.ofFin r)) 1) ∧
    isNext (exec i stateA) = true ∧ isNext (exec i s') = true := by decide +kernel

/-! ### Faults -/

theorem witness_FaultLeavesState :
    (∃ e u, exec (.vfmsubadd132pdXmmVex [] 1 2 (.reg 3)) codeSNaN = .fault (.exception e u)) ∧
    (match exec (.vfmsubadd132pdXmmVex [] 1 2 (.reg 3)) codeSNaN with
     | .fault (.exception _ u) => u.mxcsr != codeSNaN.mxcsr
     | _ => false) = true ∧
    ∃ e u, exec (.vfmsubadd132pdZmmEvex [] { aaa := 0, z := false } 1 2 (.mem (.base 0 .none))) statePage =
      .fault (.exception e u) :=
  ⟨fault_of (by decide +kernel), by decide +kernel, fault_of (by decide +kernel)⟩

/-- E1 (an unmasked `IE`) and E3 (an unmasked `PE`). -/
theorem witness_UnmaskedExceptionFaults :
    let o := (Instr.vfmsubadd132pdZmmEvex [] { aaa := 0, z := false } 1 2 (.reg 3)).formOp
    (let s := { dataA with mxcsr := 0x1F00 }
     formEnabled s o = true ∧ s.cr0TS = false ∧ (operandStop s o).isNone = true ∧ suppressAll s o = false ∧
       s.cfg.flagPolicy = .twoPhase ∧ s.unmasked (raisedFlags s o &&& (flagIE ||| flagDE)) ≠ 0) ∧
    (let s := { dataA with mxcsr := 0x0F80 }
     formEnabled s o = true ∧ s.cr0TS = false ∧ (operandStop s o).isNone = true ∧ suppressAll s o = false ∧
       s.cfg.flagPolicy = .twoPhase ∧ s.unmasked (raisedFlags s o &&& (flagIE ||| flagDE)) = 0 ∧
       s.unmasked (raisedFlags s o) ≠ 0) := by decide +kernel

theorem witness_AnySubsetFlagsBounded :
    let o := (Instr.vfmsubadd132pdZmmEvex [] { aaa := 0, z := false } 1 2 (.reg 3)).formOp
    let s := { dataA with mxcsr := 0x0F80, cfg := { Config.default with flagPolicy := .anySubset } }
    formEnabled s o = true ∧ s.cr0TS = false ∧ (operandStop s o).isNone = true ∧ suppressAll s o = false ∧
      s.cfg.flagPolicy = .anySubset ∧ s.unmasked (raisedFlags s o) ≠ 0 := by decide +kernel

/-- Each row of R142 on the state, in the order of the statement. -/
theorem witness_DisabledFormUndefined :
    let v := (Instr.vfmsubadd132pdXmmVex [] 1 2 (.reg 3)).formOp
    let e := (Instr.vfmsubadd132pdXmmEvex [] { aaa := 0, z := false } 1 2 (.reg 3)).formOp
    State.reset.cr0.getLsbD 0 = false ∧ ({ stateA with rflags := 0x20002 } : State).rflags.getLsbD 17 = true ∧
    State.reset.cr4.getLsbD 18 = false ∧ State.reset.xcr0.extractLsb' 1 2 ≠ 0b11#2 ∧
    (e.mask ≠ none ∧ ({ stateA with xcr0 := 7 } : State).xcr0.extractLsb' 5 3 ≠ 0b111#3) ∧
    (v.mask = none ∧ ({ Config.default with hasFMA := false } : Config).hasFMA = false) ∧
    (e.mask ≠ none ∧ ({ Config.default with hasAVX512F := false } : Config).hasAVX512F = false) ∧
    (e.mask ≠ none ∧ e.vl ≠ .v512 ∧ ({ Config.default with hasAVX512VL := false } : Config).hasAVX512VL = false) := by
  decide +kernel

theorem witness_TaskSwitchedFormsUnavailable :
    let s := { stateA with cr0 := stateA.cr0 ||| 8 }
    s.cr0.getLsbD 3 = true ∧ formEnabled s (Instr.vfmsubadd132pdXmmVex [] 1 2 (.reg 3)).formOp = true ∧
    State.reset.cr0.getLsbD 3 = false := by decide +kernel

/-- M10 and M11; and an operand that runs past `FFFFFFFFFFFFFFFFH`. -/
theorem witness_NonCanonicalOperandFaults :
    (let o := (Instr.vfmsubadd132pdZmmEvex [] { aaa := 0, z := false } 1 2 (.mem (.base 0 .none))).formOp
     let s := { stateA with gpr := stateA.gpr.set 0 0x800000000000 }
     formEnabled s o = true ∧ s.cr0TS = false ∧ s.is64 = true ∧ memOperand? o = some (.base 0 .none, false) ∧
       0 ∈ neededBytes s o false ∧ operandSeg o (.base 0 .none) = .ds ∧ s.alignmentCheck = false ∧
       firstTranslationFault s .read (neededAddresses s o (.base 0 .none) false) = none ∧
       s.canonical (linearByte s (operandSeg o (.base 0 .none)) (effectiveAddress s o (.base 0 .none) false) 0) = false) ∧
    (let o := (Instr.vfmsubadd132pdZmmEvex [] { aaa := 0, z := false } 1 2 (.mem (.base 5 (.d8 0)))).formOp
     let s := { stateA with gpr := stateA.gpr.set 5 0x800000000000 }
     formEnabled s o = true ∧ s.cr0TS = false ∧ s.is64 = true ∧ memOperand? o = some (.base 5 (.d8 0), false) ∧
       63 ∈ neededBytes s o false ∧ operandSeg o (.base 5 (.d8 0)) = .ss ∧ s.alignmentCheck = false ∧
       firstTranslationFault s .read (neededAddresses s o (.base 5 (.d8 0)) false) = none ∧
       s.canonical (linearByte s (operandSeg o (.base 5 (.d8 0))) (effectiveAddress s o (.base 5 (.d8 0)) false) 63) =
         false) ∧
    (let o := (Instr.vfmsubadd132pdXmmVex [] 1 2 (.mem (.base 0 .none))).formOp
     let s := { stateA with gpr := stateA.gpr.set 0 0xFFFFFFFFFFFFFFF8 }
     formEnabled s o = true ∧ s.cr0TS = false ∧ s.is64 = true ∧ memOperand? o = some (.base 0 .none, false) ∧
       8 ∈ neededBytes s o false ∧ operandSeg o (.base 0 .none) = .ds ∧ s.alignmentCheck = false ∧
       firstTranslationFault s .read (neededAddresses s o (.base 0 .none) false) = none ∧
       2 ^ 64 ≤ (segBase s (operandSeg o (.base 0 .none)) + effectiveAddress s o (.base 0 .none) false).toNat + 8) := by
  decide +kernel

theorem witness_SegmentLimitFaults :
    let o := (Instr.vfmsubadd132pdXmmVex [] 1 2 (.mem (.base 0 .none))).formOp
    (let s := { state32 with ds := { state32.ds with selector := 3 } }
     formEnabled s o = true ∧ s.cr0TS = false ∧ s.is64 = false ∧ o.pfx.contains .addressSize = false ∧
       memOperand? o = some (.base 0 .none, false) ∧ 0 ∈ neededBytes s o false ∧ s.alignmentCheck = false ∧
       firstTranslationFault s .read (neededAddresses s o (.base 0 .none) false) = none ∧ nullSelector (s.readSeg .ds) = true) ∧
    (let s := { state32 with ds := { state32.ds with limit := 0x1000E } }
     formEnabled s o = true ∧ s.cr0TS = false ∧ s.is64 = false ∧ memOperand? o = some (.base 0 .none, false) ∧
       15 ∈ neededBytes s o false ∧ s.alignmentCheck = false ∧
       firstTranslationFault s .read (neededAddresses s o (.base 0 .none) false) = none ∧ nullSelector (s.readSeg .ds) = false ∧
       (s.readSeg .ds).limit.toNat < (effectiveAddress s o (.base 0 .none) false).toNat + 15) := by decide +kernel

/-- M7 without its mask, a broadcast from the absent page; and the same in `Mode32`. -/
theorem witness_OperandPageFault :
    let m := MemOperand.base 0 .none
    let o := (Instr.vfmsubadd132pdZmmEvex [] { aaa := 0, z := false } 1 2 (.bcst m)).formOp
    let split (s : State) : Prop :=
      formEnabled s o = true ∧ s.cr0TS = false ∧ s.alignmentCheck = false ∧ memOperand? o = some (m, true) ∧
      neededAddresses s o m true =
        [0x10FFF#64] ++ 0x11000#64 :: [0x11001#64, 0x11002, 0x11003, 0x11004, 0x11005, 0x11006] ∧
      s.translate .read s.cpl 0x10FFF#64 = .physical 0x10FFF ∧
      s.translate .read s.cpl 0x11000#64 = .fault (.pf 4) 0x11000
    (let s := { statePage with gpr := stateA.gpr.set 0 0x10FFF }
     split s ∧ s.is64 = true ∧
      ∀ off ∈ neededBytes s o true, canonicalByte s (operandSeg o m) (effectiveAddress s o m true) off = true) ∧
    (let s := { state32 with cfg := absentPage, gpr := stateA.gpr.set 0 0x10FFF }
     let g := s.readSeg (operandSeg o m)
     split s ∧ s.is64 = false ∧ o.pfx.contains .addressSize = false ∧ nullSelector g = false ∧ g.readable = true ∧
      ∀ off ∈ neededBytes s o true, (effectiveAddress s o m true).toNat + off ≤ g.limit.toNat) := by
  decide +kernel

/-- M8 and M9. -/
theorem witness_AlignmentCheckedOnBroadcastOnly :
    let m := MemOperand.base 0 .none
    let o := (Instr.vfmsubadd132pdZmmEvex [] { aaa := 0, z := false } 1 2 (.bcst m)).formOp
    let s := checked { stateM with gpr := stateA.gpr.set 0 0x10001 }
    (formEnabled s o = true ∧ s.cr0TS = false ∧ s.is64 = true ∧ s.cfg.acOnFullVector = false ∧
      memOperand? o = some (m, true) ∧ s.cr0.getLsbD 18 = true ∧ s.rflags.getLsbD 18 = true ∧ s.cpl = 3#2 ∧
      neededBytes s o true ≠ [] ∧
      (∀ off ∈ neededBytes s o true, canonicalByte s (operandSeg o m) (effectiveAddress s o m true) off = true) ∧
      firstTranslationFault s .read (neededAddresses s o m true) = none ∧
      (linearByte s (operandSeg o m) (effectiveAddress s o m true) 0).toNat % 8 ≠ 0) ∧
    memOperand? (Instr.vfmsubadd132pdZmmEvex [] { aaa := 0, z := false } 1 2 (.mem m)).formOp = some (m, false) := by
  decide +kernel

/-- M6; and the same operand in the local APIC's page. -/
theorem witness_FullyMaskedOperandNotRead :
    let m := MemOperand.base 0 .none
    let o := (Instr.vfmsubadd132pdZmmEvex [] { aaa := 1, z := false } 1 2 (.bcst m)).formOp
    let masked (s : State) : Prop :=
      formEnabled s o = true ∧ s.cr0TS = false ∧ s.is64 = true ∧ s.cfg.faultSuppression = true ∧
      memOperand? o = some (m, true) ∧ ∀ j : Fin 8, activeLane s o j = false
    (let s := withK { statePage with gpr := stateA.gpr.set 0 0x11000 } 1 0xFFFFFFFFFFFFFF00
     masked s ∧ (firstInRegion s .read .device (operandAddresses s o m true)).isNone = true ∧ operandSize o true = 8) ∧
    (let s := withK { stateA with gpr := stateA.gpr.set 0 0xFEE00000 } 1 0xFFFFFFFFFFFFFF00
     masked s ∧ segmentAllows s (operandSeg o m) (effectiveAddress s o m true) 7 = true ∧
       s.translate .read s.cpl (linearByte s (operandSeg o m) (effectiveAddress s o m true) 7) = .physical 0xFEE00007 ∧
       regionKind s.cfg.addressMap 0xFEE00007 = .device) := by decide +kernel

theorem witness_OperandReadableExactly :
    stateM.is64 = true ∧
    memOperand? (Instr.vfmsubadd213pdYmmVex [] 1 2 (.mem (.base 0 .none))).formOp = some (.base 0 .none, false) := by
  decide +kernel

/-- The last qword in the local APIC's page, in 64-bit mode and in `Mode32`. -/
theorem witness_OperandReadableExactly_device :
    let m := MemOperand.base 0 .none
    let o := (Instr.vfmsubadd213pdYmmVex [] 1 2 (.mem m)).formOp
    ∀ s ∈ [{ stateA with gpr := stateA.gpr.set 0 0xFEDFFFE8 },
        { state32 with gpr := stateA.gpr.set 0 0xFEDFFFE8, ds := { state32.ds with limit := 0xFFFFFFFF } }],
      memOperand? o = some (m, false) ∧ o.pfx.contains .addressSize = false ∧
      segmentFault s (operandSeg o m) (effectiveAddress s o m false) (neededBytes s o false) = none ∧
      s.alignmentCheck = false ∧ firstTranslationFault s .read (neededAddresses s o m false) = none ∧
      31 < operandSize o false ∧ segmentAllows s (operandSeg o m) (effectiveAddress s o m false) 31 = true ∧
      s.translate .read s.cpl (linearByte s (operandSeg o m) (effectiveAddress s o m false) 31) = .physical 0xFEE00007 ∧
      regionKind s.cfg.addressMap 0xFEE00007 = .device := by decide +kernel

/-! ### Operands -/

theorem witness_CompressedDisplacement :
    stateA.is64 = true ∧ ([.seg .es] : List LegacyPrefix).contains .addressSize = false := by decide +kernel

/-- The bytes of X9 (a base, an index and a `disp8`, under `FS` and `67H`) and of X12 in `Mode32`; and of X24 (a broadcast),
with the stack segment by the base of X12 and not of X9. -/
theorem witness_CompressedDisplacement_bytes :
    stateA.legacyMode = false ∧ stateA.is64 = true ∧ state32.legacyMode = false ∧ state32.is64 = false ∧
    (0x4C#8).extractLsb' 6 2 ≠ 0b11#2 ∧ (0x48#8).extractLsb' 6 2 ≠ 0b11#2 ∧
    5 ≤ [0xE3#8, 0x40, 0, 0, 0].length ∧ 5 ≤ [0x24#8, 0x10, 0, 0, 0].length ∧
    ((0x02#8).extractLsb' 0 5 = 0b00010#5 ∧ (0xAD#8).extractLsb' 7 1 = 1#1 ∧ (0xAD#8).extractLsb' 0 2 = 0b01#2) ∧
    ((0xE2#8).extractLsb' 6 2 = 0b11#2 ∧ (0xE2#8).extractLsb' 0 5 = 0b00010#5 ∧ (0xE9#8).extractLsb' 7 1 = 1#1 ∧
      (0xE9#8).extractLsb' 0 2 = 0b01#2) ∧
    ((0xF2#8).extractLsb' 0 4 = 0b0010#4 ∧ (0xED#8).extractLsb' 7 1 = 1#1 ∧ (0xED#8).extractLsb' 0 3 = 0b101#3 ∧
      (0x18#8).extractLsb' 5 2 ≠ 0b11#2 ∧ ¬ ((0x18#8).extractLsb' 7 1 = 1#1 ∧ (0x18#8).extractLsb' 0 3 = 0#3)) ∧
    stackBased 0 0x4C [0x24#8, 0x10, 0, 0, 0] ∧ ¬ stackBased 1 0x4C [0xE3#8, 0x40, 0, 0, 0] := by
  unfold stackBased
  decide +kernel

/-- R124: `R11 + R12 * 8 + 40H` of X9, by the table and by the machine. -/
theorem test_address_X9 :
    let s := { stateA with gpr := (stateA.gpr.set 11 0x1000).set 12 0x20 }
    addressRow s 1 1 1 0 0x4C [0xE3#8, 0x40, 0, 0, 0] = 0x1140 ∧
    effectiveAddress s (vexOp .f231 .v256 [] 9 10 (.mem (.sib 11 (some 12) 3 (.d8 0x40))))
      (.sib 11 (some 12) 3 (.d8 0x40)) false = 0x1140 := by decide +kernel

/-- X34, and X11 under `67H`. -/
theorem witness_RipRelativeFromNextInstruction :
    stateA.is64 = true ∧
    memOperand? (Instr.vfmsubadd231pdZmmEvex [] { aaa := 0, z := false } 0 1 (.mem (.ripRel 0x100))).formOp =
      some (.ripRel 0x100, false) ∧
    memOperand? (Instr.vfmsubadd213pdXmmVex [.addressSize] 1 2 (.mem (.ripRel 0x10))).formOp =
      some (.ripRel 0x10, false) := by decide +kernel

theorem witness_MemoryLanesLittleEndian :
    (vexOp .f132 .v256 [] 1 2 (.mem (.base 0 .none))).src3 = .mem (.base 0 .none) ∧
    (evexOp .f132 .v256 [] { aaa := 0, z := false } 1 2 (.bcst (.base 0 .none))).src3 = .bcst (.base 0 .none) ∧
    (vexOp .f132 .v256 [] 1 2 (.reg 3)).src3 = .reg 3 ∧
    (evexOp .f132 .v512 [] { aaa := 0, z := false } 1 2 (.regB 19 1)).src3 = .regB 19 1 ∧
    stateM.is64 = true ∧ state32.is64 = false := by decide +kernel

/-! ### Lane arithmetic -/

theorem witness_NaNOperandPropagates : (fpNaN 0x3FF0000000000000 || fpNaN 0 || fpNaN 0x7FF0000000000001) = true := by
  decide +kernel

/-- S29, S21, S23 and S25, one for each clause: `inf * denormal` under `DAZ`, `inf - inf`, an infinite product, an infinite
addend. -/
theorem witness_InfinityOperands :
    (let a : Lane := 0x7FF0000000000000; let b : Lane := 1; let c : Lane := 0x3FF0000000000000
     (fpNaN a || fpNaN b || fpNaN c) = false ∧ (fpInf a && (fpZero b || (true && fpDenormal b))) = true) ∧
    (let a : Lane := 0x7FF0000000000000; let b : Lane := 0x3FF0000000000000; let c : Lane := 0x7FF0000000000000
     (fpNaN a || fpNaN b || fpNaN c) = false ∧ fpZero b = false ∧ fpDenormal b = false ∧ fpInf c = true ∧
       (fpSign a != fpSign b) ≠ (fpSign c != true)) ∧
    (let a : Lane := 0x7FF0000000000000; let b : Lane := 0x3FF0000000000000; let c : Lane := 0xFFF0000000000000
     (fpNaN a || fpNaN b || fpNaN c) = false ∧ fpInf c = true ∧ (fpSign a != fpSign b) = (fpSign c != true)) ∧
    (let a : Lane := 0x3FF0000000000000; let c : Lane := 0x7FF0000000000000
     (fpNaN a || fpNaN a || fpNaN c) = false ∧ (fpInf a || fpInf a) = false ∧ fpInf c = true) := by decide +kernel

/-- S31: `1 * 1 - 1`. -/
theorem witness_ZeroSumSign :
    fpFinite 0x3FF0000000000000 = true ∧ exactFma 0x3FF0000000000000 0x3FF0000000000000 0x3FF0000000000000 true = 0 := by
  decide +kernel

/-- `1 * 1 + 0`, under every rounding control, neither overflows nor is tiny. -/
theorem witness_RoundsToNearestEven :
    fpFinite 0x3FF0000000000000 = true ∧ fpFinite 0 = true ∧
    (∀ rc, ¬ Overflows rc (exactFma 0x3FF0000000000000 0x3FF0000000000000 0 false)) ∧
    ∀ rc, ¬ Tiny rc (exactFma 0x3FF0000000000000 0x3FF0000000000000 0 false) := by
  unfold Overflows Tiny
  decide +kernel

theorem witness_RoundsInDirection :
    fpFinite 0x3FF0000000000000 = true ∧ fpFinite 0 = true ∧
    (∀ rc, ¬ Overflows rc (exactFma 0x3FF0000000000000 0x3FF0000000000000 0 false)) ∧
    ∀ rc, ¬ Tiny rc (exactFma 0x3FF0000000000000 0x3FF0000000000000 0 false) :=
  witness_RoundsToNearestEven

/-- `2^1023 * 1 + 2^1023 = 2^1024` overflows under every rounding control, and so does its negative; to nearest
`MAXF + 2^970` does (S49) and `MAXF + 2^969` does not (S51). -/
theorem witness_OverflowResponse :
    fpFinite 0x7FE0000000000000 = true ∧ fpFinite 0x3FF0000000000000 = true ∧ fpFinite 0x7C90000000000000 = true ∧
    (∀ rc, Overflows rc (exactFma 0x7FE0000000000000 0x3FF0000000000000 0x7FE0000000000000 false)) ∧
    (∀ rc, Overflows rc (exactFma 0x7FE0000000000000 0xBFF0000000000000 0x7FE0000000000000 true)) ∧
    Overflows 0 (exactFma 0x7FEFFFFFFFFFFFFF 0x3FF0000000000000 0x7C90000000000000 false) ∧
    ¬ Overflows 0 (exactFma 0x7FEFFFFFFFFFFFFF 0x3FF0000000000000 0x7C80000000000000 false) := by
  unfold Overflows
  decide +kernel

/-- S65: `2^-1074 * 1 + 2^-1074` is tiny, and so is its negative; of S54 and S66, just below `MINN`, the first is tiny and the
second is not. -/
theorem witness_UnderflowResponse :
    fpFinite 1 = true ∧ fpFinite 0x3FF0000000000000 = true ∧ fpFinite 0 = true ∧
    (∀ rc, Tiny rc (exactFma 1 0x3FF0000000000000 1 false)) ∧ (∀ rc, Tiny rc (exactFma 1 0xBFF0000000000000 1 true)) ∧
    Tiny 0 (exactFma 0x3FEFFFFFFFFFFFFF 0x0010000000000000 0 false) ∧
    ¬ Tiny 0 (exactFma 0x3FEFFFFFFFFFFFFE 0x0010000000000001 0 false) := by
  unfold Tiny
  decide +kernel

theorem witness_PrecisionFlagExact :
    fpFinite 0x3FF0000000000000 = true ∧
    fpFinite (fma64 false 0 false false true true 0x3FF0000000000000 0x3FF0000000000000 0x3FF0000000000000 false).1 = true := by
  decide +kernel

theorem witness_DenormalOperands : (fpNaN 1 || fpNaN 0x3FF0000000000000 || fpNaN 0) = false := by decide +kernel

/-! ### Exceptions taken, debug, page faults -/

/-- On a privilege change; at the handler's level; and on the stack of IST entry 7. -/
theorem witness_DeliveredExceptionEntersHandler :
    (∃ t, takeException .ud gated = .next t) ∧
    (∃ t, takeException .ud { gated with cs := { gated.cs with selector := 0x8 }, gpr := gated.gpr.set 4 0x7008 } = .next t) ∧
    ∃ t, takeException .ud { gated with gates := gated.gates.map fun g => (g.1, { g.2 with ist := 7 }) } = .next t :=
  ⟨next_of (by decide +kernel), next_of (by decide +kernel), next_of (by decide +kernel)⟩

/-- The five pushes of `gated` lie at 40 addresses that are their own physical bytes. -/
theorem witness_DeliveredFrameInMemory :
    Memory.wf gated.mem = true ∧ (∃ t, takeException .ud gated = .next t) ∧
    (∃ g, gated.gateFor .ud = some g ∧ gated.deliveryStack g = 0x9000) ∧
    ∀ n : Fin 5, ∀ i : Fin 8,
      gated.translate .read 0#2 (0x9000#64 - BitVec.ofNat 64 (8 * (n + 1)) + BitVec.ofNat 64 i) =
        .physical (BitVec.ofNat 64 (0x9000 - 8 * (n + 1) + i)) :=
  ⟨rfl, next_of (by decide +kernel), ⟨_, rfl, by decide +kernel⟩, by decide +kernel⟩

theorem witness_ExceptionReturnRestores :
    excErrorCode .ud = none ∧ gated.cfg.translation = { rows := [], pages := [], unlisted := .identity } ∧ Memory.wf gated.mem = true ∧
    ∃ t, takeException .ud gated = .next t :=
  ⟨rfl, rfl, rfl, next_of (by decide +kernel)⟩

/-- What the step fetches. -/
def fetches (s : State) (i : Instr) : Bool := match fetch s with
  | .instr j => decide (j = i)
  | .stop _ => false

/-- Breakpoint 3 on V1; V1 under `EFLAGS.TF`; a read breakpoint on the last byte of an operand; and V1 alone. -/
theorem witness_DebugExceptions :
    (let s := { codeV1 with dr3 := 0x401000, dr7 := 0x440 }
     s.drEnabled (3 : Fin 4) = true ∧ s.drKind (3 : Fin 4) = 0b00#2 ∧ s.ripPast = false ∧
       s.drAddress (3 : Fin 4) = codeAddress s 0) ∧
    (let s := { codeV1 with rflags := 0x102 }
     let i := Instr.vfmsubadd132pdXmmVex [] 1 2 (.reg 3)
     codeHits s = 0 ∧ fetches s i = true ∧ s.rflags.getLsbD 8 = true ∧ isNext (exec i s) = true) ∧
    (let s := put { stateM with dr0 := 0x1000F, dr7 := 0x30001 } 0x401000 [0xC4, 0xE2, 0xE9, 0x97, 0x08]
     let i := Instr.vfmsubadd132pdXmmVex [] 1 2 (.mem (.base 0 .none))
     codeHits s = 0 ∧ fetches s i = true ∧ dataHits s i.formOp ≠ 0 ∧ s.rflags.getLsbD 8 = false ∧
       isNext (exec i s) = true) ∧
    (let i := Instr.vfmsubadd132pdXmmVex [] 1 2 (.reg 3)
     codeHits codeV1 = 0 ∧ fetches codeV1 i = true ∧ dataHits codeV1 i.formOp = 0 ∧ codeV1.rflags.getLsbD 8 = false ∧
       isNext (exec i codeV1) = true) := by decide +kernel

theorem witness_PageFaultErrorCodeBits :
    statePage.cr0PG = true ∧ lookupRow statePage.cfg.translation.rows .read 3#2 0x11000#64 = none ∧
    lookupPage statePage.cfg.translation.pages ((0x11000#64).extractLsb' 12 52) =
      some { frame := 0, present := false, reserved := false, user := true, noExec := false, keyDenied := false, sgxDenied := false } ∧
    statePage.translate .read 3#2 0x11000#64 = .fault (.pf 4) 0x11000 := by decide +kernel

/-- Launched from RESET. -/
theorem witness_LaunchedFormRuns_launch :
    let i := Instr.vfmsubadd132pdXmmVex [] 1 2 (.reg 3)
    let s := State.reset
    i.wf .mode64 s.cfg.b1RegNon512 = true ∧ cpuidOk s.cfg i.formOp = true ∧ s.mxcsr.extractLsb' 16 16 = 0#16 ∧
    Memory.wf s.mem = true ∧ s.cfg.translation = { rows := [], pages := [], unlisted := .identity } ∧
    ∀ n : Fin 15, regionKind s.cfg.addressMap (codeAddress s.launched n).toNat = .ordinary := by decide +kernel

theorem witness_LaunchedFormRuns :
    LaunchPremises codeV1 (.vfmsubadd132pdXmmVex [] 1 2 (.reg 3)) ∧
    Completes codeV1 (Instr.vfmsubadd132pdXmmVex [] 1 2 (.reg 3)).formOp := by
  refine ⟨⟨rfl, by decide +kernel, rfl, by decide +kernel, fun _ => ⟨rfl, by decide +kernel⟩, ?_, ?_, by decide +kernel⟩,
    completes_of (by decide +kernel)⟩
  · simp only [fetch, witness_StepRunsDecodedInstruction.2.2.1]
  · exact fun n h => fetch_stop_none (by decide +kernel) n h

/-- V1 and then V2. -/
def program : List Instr := [.vfmsubadd132pdXmmVex [] 1 2 (.reg 3), .vfmsubadd213pdXmmVex [] 1 2 (.reg 3)]

def stateProgram : State := put stateA 0x401000 (programBytes program)

theorem witness_ProgramRunEnds :
    stateProgram.is64 = true ∧ stateProgram.debugQuiet = true ∧
    (∀ i ∈ program, i.wf stateProgram.decodeMode stateProgram.cfg.b1RegNon512 = true) ∧
    (programBytes program).length = 10 ∧
    (∀ n : Fin 10, (fetchStop stateProgram n).isNone = true ∧ fetchByte stateProgram n = (programBytes program).getD n 0) ∧
    isNext (execAll program stateProgram) = true ∧
    (match runProgram program 2 stateProgram with
      | .finished t => t.pc == 0x40100A
      | _ => false) = true := by decide +kernel

/-! ## Fetch and its order of faults -/

/-- R123 (b): a form that ends at the last byte of the address space leaves `pc` at `2^64`, and no byte can be fetched there. -/
theorem test_past_the_top : (match stepOn { stateA with rip := 0xFFFFFFFFFFFFFFFB } [0xC4, 0xE2, 0xE9, 0x97, 0xCB] with
    | .next t => t.pc == 2 ^ 64 && (faulted (step t)).map (·.1) == some .gp
    | _ => false) = true := by decide +kernel

/-- R147: in real-address mode a form past the code limit is #GP(0) (row 1), ahead of the #UD of row 4. -/
theorem test_legacy_fetch_fault_first :
    faulted (stepOn { state32 with cr0 := 0x60000010, rip := 0x1000, cs := { state32.cs with limit := 0x1003 } }
      [0xC4, 0xE2, 0xE9, 0x97, 0xCB]) = some (.gp, 0x1F80, 0, 0x1000) := by decide +kernel

/-- R147: fifteen prefixes below an absent page are #PF (row 2); where the sixteenth byte can be fetched and begins V1 they are
#GP(0) (row 3), and where it is `90H`, and so none of the forms, they are refused (R70, R162). -/
theorem test_sixteenth_byte :
    faulted (stepOn { statePage with rip := 0x10FF1 } (List.replicate 15 0x67)) =
      some (.pf 0x14, 0x1F80, 0x11000, 0x10FF1) ∧
    faulted (stepOn { stateA with rip := 0x10FF1 } (List.replicate 15 0x67 ++ [0xC4, 0xE2, 0xE9, 0x97, 0xCB])) =
      some (.gp, 0x1F80, 0, 0x10FF1) ∧
    (match stepOn stateA (List.replicate 15 0x66 ++ [0x90]) with
      | .refused .notInSpec => true
      | _ => false) = true := by decide +kernel

/-- R127: 16-bit addressing is refused at the ModRM byte, whatever follows. -/
theorem test_addressing16_at_modrm :
    decode .mode32 .as512 [0x67, 0xC4, 0xE2, 0xE9, 0x97, 0x04] = .addressing16 ∧
    decode .mode32 .as512 [0x67, 0xC4, 0xE2, 0xE9, 0x97] = .truncated := by decide +kernel

/-- R26, R160: in real-address mode a form is undefined once its bytes are read. -/
theorem test_legacy_undefined :
    decode .legacy .as512 [0xC4, 0xE2, 0xE9, 0x97, 0xCB] = .undefined ∧
    decode .legacy .as512 [0xC4, 0xE2, 0xE9, 0x97] = .truncated := by decide +kernel

/-! ## Delivery and debug, run -/

/-- R149: the bytes of I1, with a gate for #UD: the handler's `RIP`, `CPL 0`, `RSP` five words below `RSP0`. -/
theorem test_delivery : (match stepOn gated [0x62, 0xF2, 0xED, 0xC8, 0x97, 0xCB] with
    | .next t => t.rip == 0x500000 && t.cpl == 0 && t.readGpr 4 == 0x8FD8 && t.readQword 0x8FD8 == 0x401000
    | _ => false) = true := by decide +kernel

/-- R157: with `EFLAGS.TF = 1` a completed form ends in #DB with the pc after it. -/
theorem test_single_step : faulted (step { codeV1 with rflags := 0x102 }) = some (.db, 0x1F80, 0, 0x401005) := by
  decide +kernel

/-- R157: a data breakpoint on the operand's last byte. -/
theorem test_data_breakpoint :
    faulted (stepOn { stateM with dr0 := 0x1000F, dr7 := 0x30001 } [0xC4, 0xE2, 0xE9, 0x97, 0x08]) =
      some (.db, 0x1F80, 0, 0x401005) := by decide +kernel

/-- R22, R126: `Mode32` runs V1's bytes and a memory form. -/
theorem test_mode32 : isNext (stepOn { state32 with rip := 0x1000 } [0xC4, 0xE2, 0xE9, 0x97, 0x08]) = true := by decide +kernel

end Sys2Proof.Tests
end

section
/-! PROOFS. The decoder reads back what the encoder wrote, the fetched window begins with the bytes that can be fetched, and
the step runs the instruction that the bytes at the instruction pointer decode to (O9, O10). -/

namespace Sys2Proof

/-! ## Prefixes and opcode -/

theorem legacyPrefix?_byte (p : LegacyPrefix) : legacyPrefix? p.byte = some p := by
  cases p with
  | seg g => cases g <;> rfl
  | addressSize => rfl

/-- The allowed prefixes are split off, up to the first byte of another kind (R67 (1)). -/
theorem splitPrefixes_map_byte {m : DecodeMode} {b : Byte} (hb : isPrefix m b = false) (pfx : List LegacyPrefix)
    (bs : List Byte) : splitPrefixes m (pfx.map LegacyPrefix.byte ++ b :: bs) = (pfx, false, b :: bs) := by
  induction pfx with
  | nil =>
    obtain ⟨hallowed, hforbidden⟩ : legacyPrefix? b = none ∧ forbiddenPrefix m b = false := by simpa [isPrefix] using hb
    simp [splitPrefixes, hallowed, hforbidden]
  | cons p pfx ih => simp [splitPrefixes, legacyPrefix?_byte, ih]

theorem decode_prefixed_vex (m : DecodeMode) (p : B1RegNon512) (pfx : List LegacyPrefix) (bs : List Byte) :
    decode m p (pfx.map LegacyPrefix.byte ++ 0xC4#8 :: bs) = decodeVex m pfx false bs := by
  rw [decode, splitPrefixes_map_byte (by cases m <;> decide)]
  rfl

theorem decode_prefixed_evex (m : DecodeMode) (p : B1RegNon512) (pfx : List LegacyPrefix) (bs : List Byte) :
    decode m p (pfx.map LegacyPrefix.byte ++ 0x62#8 :: bs) = decodeEvex m p pfx false bs := by
  rw [decode, splitPrefixes_map_byte (by cases m <;> decide)]
  rfl

theorem form?_opcode (f : Form) : form? f.opcode = some f := by cases f <;> rfl

theorem vecLen?_llBits (vl : VecLen) : vecLen? vl.llBits = some vl := by cases vl <;> rfl

/-- Where `EVEX.b = 1` is encodable on a register form, its rounding bits select the form's length (R64, D4). -/
theorem regBLen_of_wfRegB {p : B1RegNon512} {vl : VecLen} {rc : RoundControl} (h : wfRegB p vl rc = true) :
    regBLen p rc = vl := by
  cases p with
  | as512 =>
    cases vl with
    | v128 | v256 => cases h
    | v512 => rfl
  | literal =>
    cases vl with
    | v128 =>
      obtain rfl : rc = 0b00#2 := eq_of_beq h
      rfl
    | v256 =>
      obtain rfl : rc = 0b01#2 := eq_of_beq h
      rfl
    | v512 =>
      obtain rfl | rfl : rc = 0b10#2 ∨ rc = 0b11#2 := by simpa [wfRegB] using h
      · rfl
      · rfl

/-! ## The bytes of an encoding, by their fields -/

/-- ModRM from `mod`, `reg` and `rm`, and SIB from `scale`, `index` and `base` (R58, R59). -/
def byte233 (a : BitVec 2) (b c : BitVec 3) : Byte := a ++ b ++ c

/-- The first payload byte of VEX, its `R`, `X` and `B` given before their inversion (R53). -/
def vexByte1 (r x b : BitVec 1) : Byte := ~~~r ++ ~~~x ++ ~~~b ++ 0b00010#5

/-- The second payload byte of VEX, its `vvvv` given before its inversion (R53). -/
def vexByte2 (v : VexReg) (l : BitVec 1) : Byte := 1#1 ++ ~~~v ++ l ++ 0b01#2

/-- The three payload bytes of EVEX, the inverted fields given before their inversion (R56). -/
def evexP0 (r x b r' : BitVec 1) : Byte := ~~~r ++ ~~~x ++ ~~~b ++ ~~~r' ++ 0b00#2 ++ 0b10#2

def evexP1 (v : BitVec 4) : Byte := 1#1 ++ ~~~v ++ 1#1 ++ 0b01#2

def evexP2 (z : Bool) (ll : BitVec 2) (eb v' : BitVec 1) (aaa : KReg) : Byte := BitVec.ofBool z ++ ll ++ eb ++ ~~~v' ++ aaa

theorem byte233_fields (a : BitVec 2) (b c : BitVec 3) :
    (byte233 a b c).extractLsb' 6 2 = a ∧ (byte233 a b c).extractLsb' 3 3 = b ∧ (byte233 a b c).extractLsb' 0 3 = c := by
  simp (disch := decide) only [byte233, BitVec.extractLsb'_append_eq_of_le, BitVec.extractLsb'_append_eq_of_add_le,
    Nat.reduceSub, BitVec.extractLsb'_eq_self, and_self]

theorem vexByte1_fields (r x b : BitVec 1) :
    (vexByte1 r x b).extractLsb' 6 2 = ~~~r ++ ~~~x ∧ (vexByte1 r x b).extractLsb' 7 1 = ~~~r ∧
      (vexByte1 r x b).extractLsb' 6 1 = ~~~x ∧ (vexByte1 r x b).extractLsb' 5 1 = ~~~b ∧
      (vexByte1 r x b).extractLsb' 0 5 = 0b00010#5 := by
  simp (disch := decide) only [vexByte1, BitVec.extractLsb'_append_eq_of_le, BitVec.extractLsb'_append_eq_of_add_le,
    Nat.reduceSub, BitVec.extractLsb'_eq_self, and_self]

theorem vexByte2_fields (v : VexReg) (l : BitVec 1) :
    (vexByte2 v l).extractLsb' 7 1 = 1#1 ∧ (vexByte2 v l).extractLsb' 3 4 = ~~~v ∧ (vexByte2 v l).extractLsb' 2 1 = l ∧
      (vexByte2 v l).extractLsb' 0 2 = 0b01#2 := by
  simp (disch := decide) only [vexByte2, BitVec.extractLsb'_append_eq_of_le, BitVec.extractLsb'_append_eq_of_add_le,
    Nat.reduceSub, BitVec.extractLsb'_eq_self, and_self]

theorem evexP0_fields (r x b r' : BitVec 1) :
    (evexP0 r x b r').extractLsb' 6 2 = ~~~r ++ ~~~x ∧ (evexP0 r x b r').extractLsb' 7 1 = ~~~r ∧
      (evexP0 r x b r').extractLsb' 6 1 = ~~~x ∧ (evexP0 r x b r').extractLsb' 5 1 = ~~~b ∧
      (evexP0 r x b r').extractLsb' 4 1 = ~~~r' ∧ (evexP0 r x b r').extractLsb' 2 2 = 0b00#2 ∧
      (evexP0 r x b r').extractLsb' 0 2 = 0b10#2 := by
  simp (disch := decide) only [evexP0, BitVec.extractLsb'_append_eq_of_le, BitVec.extractLsb'_append_eq_of_add_le,
    Nat.reduceSub, BitVec.extractLsb'_eq_self, and_self]

theorem evexP1_fields (v : BitVec 4) :
    (evexP1 v).extractLsb' 7 1 = 1#1 ∧ (evexP1 v).extractLsb' 3 4 = ~~~v ∧
      (evexP1 v).extractLsb' 6 1 = ~~~v.extractLsb' 3 1 ∧ (evexP1 v).extractLsb' 2 1 = 1#1 ∧
      (evexP1 v).extractLsb' 0 2 = 0b01#2 := by
  have htop : (evexP1 v).extractLsb' 6 1 = ~~~v.extractLsb' 3 1 := by revert v; decide
  refine ⟨?_, ?_, htop, ?_, ?_⟩ <;>
    simp (disch := decide) only [evexP1, BitVec.extractLsb'_append_eq_of_le, BitVec.extractLsb'_append_eq_of_add_le,
      Nat.reduceSub, BitVec.extractLsb'_eq_self]

theorem evexP2_fields (z : Bool) (ll : BitVec 2) (eb v' : BitVec 1) (aaa : KReg) :
    (evexP2 z ll eb v' aaa).extractLsb' 7 1 = BitVec.ofBool z ∧ (evexP2 z ll eb v' aaa).extractLsb' 5 2 = ll ∧
      (evexP2 z ll eb v' aaa).extractLsb' 4 1 = eb ∧ (evexP2 z ll eb v' aaa).extractLsb' 3 1 = ~~~v' ∧
      (evexP2 z ll eb v' aaa).extractLsb' 0 3 = aaa := by
  simp (disch := decide) only [evexP2, BitVec.extractLsb'_append_eq_of_le, BitVec.extractLsb'_append_eq_of_add_le,
    Nat.reduceSub, BitVec.extractLsb'_eq_self, and_self]

/-! ## Displacement, SIB byte and memory operand -/

theorem disp32?_encodeDisp32 (d : BitVec 32) (rest : List Byte) :
    disp32? (encodeDisp32 d ++ rest) = some (d, rest) := by
  have hjoin : d.extractLsb' 24 8 ++ d.extractLsb' 16 8 ++ d.extractLsb' 8 8 ++ d.extractLsb' 0 8 = d := by
    rw [BitVec.extractLsb'_append_extractLsb'_eq_extractLsb' (by rfl),
      BitVec.extractLsb'_append_extractLsb'_eq_extractLsb' (by rfl),
      BitVec.extractLsb'_append_extractLsb'_eq_extractLsb' (by rfl)]
    exact BitVec.extractLsb'_eq_self
  exact congrArg (fun x => some (x, rest)) hjoin

theorem disp?_encode (d : Disp) (rest : List Byte) : disp? d.modBits (d.encode ++ rest) = some (d, rest) := by
  cases d with
  | none => rfl
  | d8 v => rfl
  | d32 v => simp [disp?, Disp.modBits, Disp.encode, disp32?_encodeDisp32]

theorem modBits_ne_register (d : Disp) : d.modBits ≠ 0b11#2 := by cases d <;> simp [Disp.modBits]

theorem modBits_eq_zero {d : Disp} : d.modBits = 0b00#2 ↔ d = .none := by cases d <;> simp [Disp.modBits]

/-- A register number is its bit 3 and its low bits. -/
theorem bit3_append_low (r : BitVec 4) : r.extractLsb' 3 1 ++ r.extractLsb' 0 3 = r := by
  rw [BitVec.extractLsb'_append_extractLsb'_eq_extractLsb' (by rfl)]
  exact BitVec.extractLsb'_eq_self

/-- The extension bit `X` that a SIB index asks for. -/
def indexExt (i : Option GReg) : BitVec 1 := i.elim 0#1 (·.extractLsb' 3 1)

theorem extX_sib (r : GReg) (i : Option GReg) (sc : BitVec 2) (d : Disp) :
    MemOperand.extX (.sib r i sc d) = indexExt i := by cases i <;> rfl

theorem extX_sibNoBase (i : Option GReg) (sc : BitVec 2) (d : BitVec 32) :
    MemOperand.extX (.sibNoBase i sc d) = indexExt i := by cases i <;> rfl

theorem index_decodes {i : Option GReg} (h : wfIndex i = true) :
    (if indexExt i ++ indexBits i = 4#4 then none else some (indexExt i ++ indexBits i)) = i := by
  cases i with
  | none => rfl
  | some r =>
    have hr : r ≠ 4#4 := by simpa [wfIndex] using h
    simp [indexExt, indexBits, bit3_append_low, hr]

/-- A SIB byte with a base register is read back (R59). -/
theorem sibOperand?_base {r : GReg} {i : Option GReg} {d : Disp} (hb : wfSibBase r d = true) (hi : wfIndex i = true)
    (sc : BitVec 2) (rest : List Byte) :
    sibOperand? (indexExt i) (r.extractLsb' 3 1) d.modBits (byte233 sc (indexBits i) (r.extractLsb' 0 3)) (d.encode ++ rest) =
      some (.sib r i sc d, rest) := by
  obtain ⟨hscale, hindex, hbase⟩ := byte233_fields sc (indexBits i) (r.extractLsb' 0 3)
  have hreg : ¬ (r.extractLsb' 0 3 = 0b101#3 ∧ d.modBits = 0b00#2) := by
    rw [modBits_eq_zero]
    rintro ⟨hr, rfl⟩
    simp [wfSibBase, hr] at hb
  simp only [sibOperand?, hscale, hindex, hbase, if_neg hreg, disp?_encode, Option.map_some, index_decodes hi, bit3_append_low]

/-- A SIB byte without a base register is read back (R59). -/
theorem sibOperand?_noBase {i : Option GReg} (hi : wfIndex i = true) (b : BitVec 1) (sc : BitVec 2) (d : BitVec 32)
    (rest : List Byte) :
    sibOperand? (indexExt i) b 0b00#2 (byte233 sc (indexBits i) 0b101#3) (encodeDisp32 d ++ rest) =
      some (.sibNoBase i sc d, rest) := by
  obtain ⟨hscale, hindex, hbase⟩ := byte233_fields sc (indexBits i) 0b101#3
  simp only [sibOperand?, hscale, hindex, hbase, and_self, if_true, disp32?_encodeDisp32, Option.map_some, index_decodes hi]

/-! ## ModRM -/

/-- ModRM and what follows it, for a third operand. -/
def RmField.encode (reg : BitVec 3) : RmField → List Byte
  | .reg rm => [byte233 0b11#2 reg rm]
  | .mem o => o.encode reg

/-- The third operand can be encoded in the mode, with the extension bits `x` and `b`. -/
def RmField.Fits (m : DecodeMode) (pfx : List LegacyPrefix) (x b : BitVec 1) : RmField → Prop
  | .reg _ => True
  | .mem o => o.wf = true ∧ wfModeMem m pfx o = true ∧ o.extX = x ∧ o.extB = b

theorem rmField?_register (x b : BitVec 1) (reg rm : BitVec 3) (rest : List Byte) :
    rmField? x b (byte233 0b11#2 reg rm) rest = some (.reg rm, rest) := by
  obtain ⟨hmod, -, hrm⟩ := byte233_fields 0b11#2 reg rm
  simp only [rmField?, hmod, hrm, if_true]

/-- A memory operand begins with a ModRM byte of the given `reg`, and is read back (R58 to R60, R62). -/
theorem mem_encode_decodes {o : MemOperand} (h : o.wf = true) (reg : BitVec 3) :
    ∃ md rm tl, o.encode reg = byte233 md reg rm :: tl ∧
      ∀ rest, rmField? o.extX o.extB (byte233 md reg rm) (tl ++ rest) = some (.mem o, rest) := by
  cases o with
  | base r d =>
    refine ⟨d.modBits, r.extractLsb' 0 3, d.encode, rfl, fun rest => ?_⟩
    obtain ⟨hmod, -, hrm⟩ := byte233_fields d.modBits reg (r.extractLsb' 0 3)
    obtain ⟨hsib, hdisp⟩ : r.extractLsb' 0 3 ≠ 0b100#3 ∧ (d ≠ .none ∨ r.extractLsb' 0 3 ≠ 0b101#3) := by
      simpa [MemOperand.wf, wfBase] using h
    have hrip : ¬ (d.modBits = 0b00#2 ∧ r.extractLsb' 0 3 = 0b101#3) := by
      rw [modBits_eq_zero]
      tauto
    simp only [rmField?, hmod, hrm, if_neg (modBits_ne_register d), if_neg hsib, if_neg hrip, disp?_encode, Option.map_some,
      MemOperand.extB, bit3_append_low]
  | sib r i sc d =>
    refine ⟨d.modBits, 0b100#3, byte233 sc (indexBits i) (r.extractLsb' 0 3) :: d.encode, rfl,
      fun rest => ?_⟩
    obtain ⟨hmod, -, hrm⟩ := byte233_fields d.modBits reg 0b100#3
    obtain ⟨hb, hi⟩ : wfSibBase r d = true ∧ wfIndex i = true := by simpa [MemOperand.wf] using h
    simp only [rmField?, hmod, hrm, if_neg (modBits_ne_register d), if_true, List.cons_append, extX_sib, MemOperand.extB,
      sibOperand?_base hb hi, Option.map_some]
  | sibNoBase i sc d =>
    refine ⟨0b00#2, 0b100#3, byte233 sc (indexBits i) 0b101#3 :: encodeDisp32 d, rfl, fun rest => ?_⟩
    obtain ⟨hmod, -, hrm⟩ := byte233_fields 0b00#2 reg 0b100#3
    simp only [rmField?, hmod, hrm, if_true, List.cons_append, extX_sibNoBase, sibOperand?_noBase h, Option.map_some]
    rfl
  | ripRel d =>
    refine ⟨0b00#2, 0b101#3, encodeDisp32 d, rfl, fun rest => ?_⟩
    obtain ⟨hmod, -, hrm⟩ := byte233_fields 0b00#2 reg 0b101#3
    simp only [rmField?, hmod, hrm, and_self, if_true, disp32?_encodeDisp32, Option.map_some]
    rfl

/-- ModRM carries `reg`, asks for no 16-bit addressing, and the operand is read back. -/
theorem rmField_encode_decodes {m : DecodeMode} {pfx : List LegacyPrefix} {x b : BitVec 1} {rm : RmField}
    (h : rm.Fits m pfx x b) (reg : BitVec 3) :
    ∃ modrm tl, rm.encode reg = modrm :: tl ∧ modrm.extractLsb' 3 3 = reg ∧ addressing16? m pfx modrm = false ∧
      ∀ rest, rmField? x b modrm (tl ++ rest) = some (rm, rest) := by
  cases rm with
  | reg r =>
    obtain ⟨hmod, hreg, -⟩ := byte233_fields 0b11#2 reg r
    exact ⟨_, [], rfl, hreg, by simp [addressing16?, hmod], rmField?_register x b reg r⟩
  | mem o =>
    obtain ⟨hwf, hmode, rfl, rfl⟩ := h
    obtain ⟨md, r, tl, henc, hdec⟩ := mem_encode_decodes hwf reg
    obtain ⟨-, hreg, -⟩ := byte233_fields md reg r
    have h16 : addressing16? m pfx (byte233 md reg r) = false := by cases m <;> simp_all [addressing16?, wfModeMem]
    exact ⟨_, tl, henc, hreg, h16, hdec⟩

/-! ## Register numbers and the bits that hold them (R62, R69) -/

/-- A register number from the bits that EVEX holds it in. -/
theorem vreg_of_bits (r : VReg) : r.extractLsb' 4 1 ++ r.extractLsb' 3 1 ++ r.extractLsb' 0 3 = r := by
  rw [BitVec.extractLsb'_append_extractLsb'_eq_extractLsb' (by rfl),
    BitVec.extractLsb'_append_extractLsb'_eq_extractLsb' (by rfl)]
  exact BitVec.extractLsb'_eq_self

theorem vreg_of_vvvv (r : VReg) : r.extractLsb' 4 1 ++ r.extractLsb' 0 4 = r := by
  rw [BitVec.extractLsb'_append_extractLsb'_eq_extractLsb' (by rfl)]
  exact BitVec.extractLsb'_eq_self

theorem vreg_bit4_of_low {r : VReg} (h : r < 8#5) : r.extractLsb' 4 1 = 0#1 := by
  revert r; decide

theorem vreg_bit3_of_low {r : VReg} (h : r < 8#5) : r.extractLsb' 3 1 = 0#1 := by
  revert r; decide

theorem vvvv_bit3_of_low {r : VReg} (h : r < 8#5) : (r.extractLsb' 0 4).extractLsb' 3 1 = 0#1 := by
  revert r; decide

theorem vexReg_bit3_of_low {r : VexReg} (h : r.setWidth 5 < 8#5) : r.extractLsb' 3 1 = 0#1 := by
  revert r; decide

theorem vexReg_and_low {r : VexReg} (h : r.setWidth 5 < 8#5) : r &&& 7#4 = r := by
  revert r; decide

theorem gReg_bit3_of_low {r : GReg} (h : r < 8#4) : r.extractLsb' 3 1 = 0#1 := by
  revert r; decide

theorem indexExt_of_low {i : Option GReg} (h : i.all (· < 8#4) = true) : indexExt i = 0#1 := by
  cases i with
  | none => rfl
  | some r => exact gReg_bit3_of_low (by simpa using h)

theorem extX_of_low {o : MemOperand} (h : o.low = true) : o.extX = 0#1 := by
  cases o with
  | base r d => rfl
  | sib r i sc d => exact (extX_sib r i sc d).trans (indexExt_of_low (Bool.and_eq_true_iff.mp h).2)
  | sibNoBase i sc d => exact (extX_sibNoBase i sc d).trans (indexExt_of_low h)
  | ripRel d => rfl

theorem extB_of_low {o : MemOperand} (h : o.low = true) : o.extB = 0#1 := by
  cases o with
  | base r d => exact gReg_bit3_of_low (of_decide_eq_true h)
  | sib r i sc d => exact gReg_bit3_of_low (of_decide_eq_true (Bool.and_eq_true_iff.mp h).1)
  | sibNoBase i sc d => rfl
  | ripRel d => rfl

theorem low_of_wfModeReg {r : VReg} (h : wfModeReg .mode32 r = true) : r < 8#5 := of_decide_eq_true h

theorem low_of_wfModeMem {pfx : List LegacyPrefix} {o : MemOperand} (h : wfModeMem .mode32 pfx o = true) : o.low = true :=
  (Bool.and_eq_true_iff.mp h).1

/-- Where the mode allows it, `B` is read as it is written: in `Mode32` it is 0. -/
theorem extB_of_bits {m : DecodeMode} {b : BitVec 1} (h : m = .mode32 → b = 0#1) : extB m b = b := by
  unfold extB
  split
  case isTrue hm => exact (h hm).symm
  case isFalse => rfl

/-! ## VEX -/

/-- The third operand of a VEX form as ModRM names it, and its extension bits. -/
def VexSrc3.rm : VexSrc3 → RmField
  | .reg r => .reg (r.extractLsb' 0 3)
  | .mem o => .mem o

def VexSrc3.extX : VexSrc3 → BitVec 1
  | .reg _ => 0#1
  | .mem o => o.extX

def VexSrc3.extB : VexSrc3 → BitVec 1
  | .reg r => r.extractLsb' 3 1
  | .mem o => o.extB

theorem encodeVex_eq (f : Form) (l : BitVec 1) (d v : VexReg) (r : VexSrc3) :
    encodeVex f l d v r = 0xC4#8 :: vexByte1 (d.extractLsb' 3 1) r.extX r.extB :: vexByte2 v l :: f.opcode ::
      r.rm.encode (d.extractLsb' 0 3) := by
  cases r <;> rfl

/-- What the decoder needs of a VEX form's operands: the third can be encoded, and in `Mode32` the bits that would name a
register above 7 are 0 (R69). -/
structure VexFits (m : DecodeMode) (pfx : List LegacyPrefix) (d v : VexReg) (r : VexSrc3) : Prop where
  rm : r.rm.Fits m pfx r.extX r.extB
  mode : m ≠ .legacy
  dest : m = .mode32 → d.extractLsb' 3 1 = 0#1
  src2 : m = .mode32 → v &&& 7#4 = v
  extX : m = .mode32 → r.extX = 0#1
  extB : m = .mode32 → r.extB = 0#1

theorem vexFits_of_wfVex {m : DecodeMode} {pfx : List LegacyPrefix} {d v : VexReg} {r : VexSrc3}
    (h : wfVex m pfx d v r = true) : VexFits m pfx d v r := by
  simp only [wfVex, Bool.and_eq_true] at h
  obtain ⟨⟨⟨hd, hv⟩, -⟩, hr⟩ := h
  have hmode : m ≠ .legacy := by
    rintro rfl
    cases hd
  have hdest : m = .mode32 → d.extractLsb' 3 1 = 0#1 := by
    rintro rfl
    exact vexReg_bit3_of_low (low_of_wfModeReg hd)
  have hsrc2 : m = .mode32 → v &&& 7#4 = v := by
    rintro rfl
    exact vexReg_and_low (low_of_wfModeReg hv)
  cases r with
  | reg x =>
    refine ⟨trivial, hmode, hdest, hsrc2, fun _ => rfl, ?_⟩
    rintro rfl
    exact vexReg_bit3_of_low (low_of_wfModeReg hr)
  | mem o =>
    obtain ⟨hwf, hmem⟩ := Bool.and_eq_true_iff.mp hr
    have hlow : m = .mode32 → o.low = true := by
      rintro rfl
      exact low_of_wfModeMem hmem
    exact ⟨⟨hwf, hmem, rfl, rfl⟩, hmode, hdest, hsrc2, fun hm => extX_of_low (hlow hm), fun hm => extB_of_low (hlow hm)⟩

/-- Behind the payload and the opcode byte of a form the decoder reads the operands (R53, R54, R67). -/
theorem decodeVex_payload {m : DecodeMode} {r x : BitVec 1} (hm : m ≠ .legacy) (h32 : m = .mode32 → r = 0#1 ∧ x = 0#1)
    (pfx : List LegacyPrefix) (f : Form) (b l : BitVec 1) (v : VexReg) (bs : List Byte) :
    decodeVex m pfx false (vexByte1 r x b :: vexByte2 v l :: f.opcode :: bs) =
      decodeVexOperands m pfx false f (vexByte1 r x b) (vexByte2 v l) bs := by
  obtain ⟨hRX, -, -, -, hmap⟩ := vexByte1_fields r x b
  obtain ⟨hW, -, -, hpp⟩ := vexByte2_fields v l
  have hC4 : ¬ (m ≠ .mode64 ∧ ~~~r ++ ~~~x ≠ 0b11#2) := by
    cases m with
    | mode64 => simp
    | mode32 => simp [h32 rfl]
    | legacy => exact absurd rfl hm
  have hlegacy : (m == .legacy) = false := beq_eq_false_iff_ne.mpr hm
  simp only [decodeVex, hRX, if_neg hC4, hlegacy, form?_opcode, hmap, hW, hpp, and_self, if_true, Bool.or_self]

theorem decodeVexOperands_encoded {m : DecodeMode} {pfx : List LegacyPrefix} {d v : VexReg} {r : VexSrc3}
    (h : VexFits m pfx d v r) (f : Form) (l : BitVec 1) (rest : List Byte) :
    decodeVexOperands m pfx false f (vexByte1 (d.extractLsb' 3 1) r.extX r.extB) (vexByte2 v l)
      (r.rm.encode (d.extractLsb' 0 3) ++ rest) = .instr (vexInstr f l pfx d v r) rest := by
  obtain ⟨modrm, tl, henc, hreg, h16, hdec⟩ := rmField_encode_decodes h.rm (d.extractLsb' 0 3)
  obtain ⟨-, hR, hX, hB, -⟩ := vexByte1_fields (d.extractLsb' 3 1) r.extX r.extB
  obtain ⟨-, hvvvv, hL, -⟩ := vexByte2_fields v l
  have hextB : extB m r.extB = r.extB := extB_of_bits h.extB
  have hsrc2 : (if m = .mode32 then v &&& 7#4 else v) = v := by
    split
    case isTrue hm => exact h.src2 hm
    case isFalse => rfl
  simp only [henc, List.cons_append, decodeVexOperands, hR, hX, hB, hvvvv, hL, hreg, h16, BitVec.not_not, hextB, hdec, hsrc2,
    bit3_append_low]
  cases r with
  | reg r => simp [VexSrc3.rm, VexSrc3.extB, bit3_append_low]
  | mem o => simp [VexSrc3.rm]

theorem decode_encodeVex {m : DecodeMode} {pfx : List LegacyPrefix} {d v : VexReg} {r : VexSrc3}
    (h : wfVex m pfx d v r = true) (p : B1RegNon512) (f : Form) (l : BitVec 1) (rest : List Byte) :
    decode m p (pfx.map LegacyPrefix.byte ++ encodeVex f l d v r ++ rest) = .instr (vexInstr f l pfx d v r) rest := by
  have hfit := vexFits_of_wfVex h
  rw [List.append_assoc, encodeVex_eq]
  simp only [List.cons_append]
  rw [decode_prefixed_vex, decodeVex_payload hfit.mode fun hm => ⟨hfit.dest hm, hfit.extX hm⟩,
    decodeVexOperands_encoded hfit]

/-! ## EVEX -/

/-- The third operand of an EVEX form as ModRM names it, its extension bits, and the fields `L'L` and `b`. -/
def EvexSrc3.rm : EvexSrc3 → RmField
  | .reg r => .reg (r.extractLsb' 0 3)
  | .regB r _ => .reg (r.extractLsb' 0 3)
  | .mem o => .mem o
  | .bcst o => .mem o

def EvexSrc3.extX : EvexSrc3 → BitVec 1
  | .reg r => r.extractLsb' 4 1
  | .regB r _ => r.extractLsb' 4 1
  | .mem o => o.extX
  | .bcst o => o.extX

def EvexSrc3.extB : EvexSrc3 → BitVec 1
  | .reg r => r.extractLsb' 3 1
  | .regB r _ => r.extractLsb' 3 1
  | .mem o => o.extB
  | .bcst o => o.extB

def EvexSrc3.llBits (vl : VecLen) : EvexSrc3 → BitVec 2
  | .reg _ => vl.llBits
  | .regB _ rc => rc
  | .mem _ => vl.llBits
  | .bcst _ => vl.llBits

def EvexSrc3.bBit : EvexSrc3 → BitVec 1
  | .reg _ => 0#1
  | .regB _ _ => 1#1
  | .mem _ => 0#1
  | .bcst _ => 1#1

theorem encodeEvex_eq (f : Form) (vl : VecLen) (k : MaskSpec) (d v : VReg) (r : EvexSrc3) :
    encodeEvex f vl k d v r = 0x62#8 :: evexP0 (d.extractLsb' 3 1) r.extX r.extB (d.extractLsb' 4 1) ::
      evexP1 (v.extractLsb' 0 4) :: evexP2 k.z (r.llBits vl) r.bBit (v.extractLsb' 4 1) k.aaa :: f.opcode ::
      r.rm.encode (d.extractLsb' 0 3) := by
  cases r <;> rfl

/-- What the decoder needs of an EVEX form's operands and decorations. -/
structure EvexFits (m : DecodeMode) (p : B1RegNon512) (vl : VecLen) (pfx : List LegacyPrefix) (k : MaskSpec) (d v : VReg)
    (r : EvexSrc3) : Prop where
  rm : r.rm.Fits m pfx r.extX r.extB
  mode : m ≠ .legacy
  dest : m = .mode32 → d < 8#5
  src2 : m = .mode32 → v < 8#5
  extX : m = .mode32 → r.extX = 0#1
  extB : m = .mode32 → r.extB = 0#1
  mask : k.wf = true
  len : ∀ x rc, r = .regB x rc → regBLen p rc = vl

theorem evexFits_of_wfEvex {m : DecodeMode} {p : B1RegNon512} {vl : VecLen} {pfx : List LegacyPrefix} {k : MaskSpec}
    {d v : VReg} {r : EvexSrc3} (h : wfEvex m p vl pfx k d v r = true) : EvexFits m p vl pfx k d v r := by
  simp only [wfEvex, Bool.and_eq_true] at h
  obtain ⟨⟨⟨⟨hd, hv⟩, hk⟩, -⟩, hr⟩ := h
  have hmode : m ≠ .legacy := by
    rintro rfl
    cases hd
  have hlow : ∀ x : VReg, wfModeReg m x = true → m = .mode32 → x < 8#5 := by
    rintro x hx rfl
    exact low_of_wfModeReg hx
  have hmem : ∀ o : MemOperand, wfModeMem m pfx o = true → m = .mode32 → o.low = true := by
    rintro o ho rfl
    exact low_of_wfModeMem ho
  cases r with
  | reg x =>
    exact ⟨trivial, hmode, hlow d hd, hlow v hv, fun hm => vreg_bit4_of_low (hlow x hr hm),
      fun hm => vreg_bit3_of_low (hlow x hr hm), hk, by simp⟩
  | regB x rc =>
    obtain ⟨hx, hrc⟩ := Bool.and_eq_true_iff.mp hr
    refine ⟨trivial, hmode, hlow d hd, hlow v hv, fun hm => vreg_bit4_of_low (hlow x hx hm),
      fun hm => vreg_bit3_of_low (hlow x hx hm), hk, fun _ _ heq => ?_⟩
    obtain ⟨-, rfl⟩ := EvexSrc3.regB.inj heq
    exact regBLen_of_wfRegB hrc
  | mem o | bcst o =>
    obtain ⟨hwf, ho⟩ := Bool.and_eq_true_iff.mp hr
    exact ⟨⟨hwf, ho, rfl, rfl⟩, hmode, hlow d hd, hlow v hv, fun hm => extX_of_low (hmem o ho hm),
      fun hm => extB_of_low (hmem o ho hm), hk, by simp⟩

/-- Behind the payload and the opcode byte of a form the decoder reads the operands (R56, R57, R67). -/
theorem decodeEvex_payload {m : DecodeMode} {r x : BitVec 1} (hm : m ≠ .legacy) (h32 : m = .mode32 → r = 0#1 ∧ x = 0#1)
    (p : B1RegNon512) (pfx : List LegacyPrefix) (f : Form) (b r' : BitVec 1) (v : BitVec 4) (p2 : Byte) (bs : List Byte) :
    decodeEvex m p pfx false (evexP0 r x b r' :: evexP1 v :: p2 :: f.opcode :: bs) =
      decodeEvexOperands m p pfx false f (evexP0 r x b r') (evexP1 v) p2 bs := by
  obtain ⟨hRX, -, -, -, -, hmap, hmm⟩ := evexP0_fields r x b r'
  obtain ⟨hW, -, -, hone, hpp⟩ := evexP1_fields v
  have h62 : ¬ (m ≠ .mode64 ∧ ~~~r ++ ~~~x ≠ 0b11#2) := by
    cases m with
    | mode64 => simp
    | mode32 => simp [h32 rfl]
    | legacy => exact absurd rfl hm
  have hlegacy : (m == .legacy) = false := beq_eq_false_iff_ne.mpr hm
  simp only [decodeEvex, hRX, if_neg h62, hlegacy, form?_opcode, hmap, hone, hmm, hW, hpp, and_self, if_true, bne_self_eq_false,
    Bool.or_self]

/-- Low registers are not refused in `Mode32` (R69). -/
theorem mode32Refused_payload {m : DecodeMode} {r' v' : BitVec 1} {v : BitVec 4}
    (h : m = .mode32 → r' = 0#1 ∧ v.extractLsb' 3 1 = 0#1 ∧ v' = 0#1) (r x b eb : BitVec 1) (z : Bool) (ll : BitVec 2)
    (aaa : KReg) : mode32Refused m (evexP0 r x b r') (evexP1 v) (evexP2 z ll eb v' aaa) = false := by
  obtain ⟨-, -, -, -, hR', -, -⟩ := evexP0_fields r x b r'
  obtain ⟨-, -, hv3, -, -⟩ := evexP1_fields v
  obtain ⟨-, -, -, hV', -⟩ := evexP2_fields z ll eb v' aaa
  cases m with
  | mode64 => rfl
  | mode32 =>
    obtain ⟨h1, h2, h3⟩ := h rfl
    simp only [mode32Refused, hR', hv3, hV']
    simp [h1, h2, h3]
  | legacy => rfl

theorem decodeEvexOperands_encoded {m : DecodeMode} {p : B1RegNon512} {vl : VecLen} {pfx : List LegacyPrefix} {k : MaskSpec}
    {d v : VReg} {r : EvexSrc3} (h : EvexFits m p vl pfx k d v r) (f : Form) (rest : List Byte) :
    decodeEvexOperands m p pfx false f (evexP0 (d.extractLsb' 3 1) r.extX r.extB (d.extractLsb' 4 1))
      (evexP1 (v.extractLsb' 0 4)) (evexP2 k.z (r.llBits vl) r.bBit (v.extractLsb' 4 1) k.aaa)
      (r.rm.encode (d.extractLsb' 0 3) ++ rest) = .instr (evexInstr f vl pfx k d v r) rest := by
  obtain ⟨modrm, tl, henc, hreg, h16, hdec⟩ := rmField_encode_decodes h.rm (d.extractLsb' 0 3)
  obtain ⟨-, hR, hX, hB, hR', -, -⟩ := evexP0_fields (d.extractLsb' 3 1) r.extX r.extB (d.extractLsb' 4 1)
  obtain ⟨-, hvvvv, -, -, -⟩ := evexP1_fields (v.extractLsb' 0 4)
  obtain ⟨hz, hll, hb, hV', haaa⟩ := evexP2_fields k.z (r.llBits vl) r.bBit (v.extractLsb' 4 1) k.aaa
  have hextB : extB m r.extB = r.extB := extB_of_bits h.extB
  have hk : ({ aaa := k.aaa, z := decide (BitVec.ofBool k.z = 1#1) } : MaskSpec) = k := by
    obtain ⟨aaa, z⟩ := k
    cases z <;> rfl
  have hnum : m = .mode32 →
      d.extractLsb' 4 1 = 0#1 ∧ (v.extractLsb' 0 4).extractLsb' 3 1 = 0#1 ∧ v.extractLsb' 4 1 = 0#1 := fun hm =>
    ⟨vreg_bit4_of_low (h.dest hm), vvvv_bit3_of_low (h.src2 hm), vreg_bit4_of_low (h.src2 hm)⟩
  simp only [henc, List.cons_append, decodeEvexOperands, hR, hX, hB, hR', hvvvv, hz, hll, hb, hV', haaa, hreg, h16,
    BitVec.not_not, hextB, hdec, mode32Refused_payload hnum, hk, h.mask, vreg_of_bits, vreg_of_vvvv]
  cases r with
  | reg r => simp [EvexSrc3.rm, EvexSrc3.extX, EvexSrc3.extB, EvexSrc3.bBit, EvexSrc3.llBits, vecLen?_llBits, vreg_of_bits]
  | regB r rc =>
    simp [EvexSrc3.rm, EvexSrc3.extX, EvexSrc3.extB, EvexSrc3.bBit, EvexSrc3.llBits, h.len r rc rfl, vreg_of_bits]
  | mem o | bcst o => simp [EvexSrc3.rm, EvexSrc3.bBit, EvexSrc3.llBits, vecLen?_llBits]

theorem decode_encodeEvex {m : DecodeMode} {p : B1RegNon512} {vl : VecLen} {pfx : List LegacyPrefix} {k : MaskSpec}
    {d v : VReg} {r : EvexSrc3} (h : wfEvex m p vl pfx k d v r = true) (f : Form) (rest : List Byte) :
    decode m p (pfx.map LegacyPrefix.byte ++ encodeEvex f vl k d v r ++ rest) = .instr (evexInstr f vl pfx k d v r) rest := by
  have hfit := evexFits_of_wfEvex h
  rw [List.append_assoc, encodeEvex_eq]
  simp only [List.cons_append]
  rw [decode_prefixed_evex, decodeEvex_payload hfit.mode fun hm => ⟨vreg_bit3_of_low (hfit.dest hm), hfit.extX hm⟩,
    decodeEvexOperands_encoded hfit]

/-! ## The fifteen instructions -/

theorem encode_vexInstr (f : Form) (l : BitVec 1) (x : List LegacyPrefix) (d v : VexReg) (r : VexSrc3) :
    encode (vexInstr f l x d v r) = x.map LegacyPrefix.byte ++ encodeVex f l d v r := by
  obtain rfl | rfl : l = 0#1 ∨ l = 1#1 := by revert l; decide
  · cases f <;> rfl
  · cases f <;> rfl

theorem wf_vexInstr (m : DecodeMode) (p : B1RegNon512) (f : Form) (l : BitVec 1) (x : List LegacyPrefix) (d v : VexReg)
    (r : VexSrc3) : (vexInstr f l x d v r).wf m p = wfVex m x d v r := by
  unfold vexInstr
  split <;> cases f <;> rfl

theorem encode_evexInstr (f : Form) (vl : VecLen) (x : List LegacyPrefix) (k : MaskSpec) (d v : VReg) (r : EvexSrc3) :
    encode (evexInstr f vl x k d v r) = x.map LegacyPrefix.byte ++ encodeEvex f vl k d v r := by
  cases f <;> cases vl <;> rfl

theorem wf_evexInstr (m : DecodeMode) (p : B1RegNon512) (f : Form) (vl : VecLen) (x : List LegacyPrefix) (k : MaskSpec)
    (d v : VReg) (r : EvexSrc3) : (evexInstr f vl x k d v r).wf m p = wfEvex m p vl x k d v r := by
  cases f <;> cases vl <;> rfl

/-- Each of the 15 rows is a VEX or an EVEX encoding of one operand order and length (R54, R57). -/
theorem Instr.vex_or_evex (i : Instr) :
    (∃ f l x d v r, i = vexInstr f l x d v r) ∨ ∃ f vl x k d v r, i = evexInstr f vl x k d v r := by
  cases i with
  | vfmsubadd132pdXmmVex x d v r => exact .inl ⟨.f132, 0#1, x, d, v, r, rfl⟩
  | vfmsubadd213pdXmmVex x d v r => exact .inl ⟨.f213, 0#1, x, d, v, r, rfl⟩
  | vfmsubadd231pdXmmVex x d v r => exact .inl ⟨.f231, 0#1, x, d, v, r, rfl⟩
  | vfmsubadd132pdYmmVex x d v r => exact .inl ⟨.f132, 1#1, x, d, v, r, rfl⟩
  | vfmsubadd213pdYmmVex x d v r => exact .inl ⟨.f213, 1#1, x, d, v, r, rfl⟩
  | vfmsubadd231pdYmmVex x d v r => exact .inl ⟨.f231, 1#1, x, d, v, r, rfl⟩
  | vfmsubadd132pdXmmEvex x k d v r => exact .inr ⟨.f132, .v128, x, k, d, v, r, rfl⟩
  | vfmsubadd213pdXmmEvex x k d v r => exact .inr ⟨.f213, .v128, x, k, d, v, r, rfl⟩
  | vfmsubadd231pdXmmEvex x k d v r => exact .inr ⟨.f231, .v128, x, k, d, v, r, rfl⟩
  | vfmsubadd132pdYmmEvex x k d v r => exact .inr ⟨.f132, .v256, x, k, d, v, r, rfl⟩
  | vfmsubadd213pdYmmEvex x k d v r => exact .inr ⟨.f213, .v256, x, k, d, v, r, rfl⟩
  | vfmsubadd231pdYmmEvex x k d v r => exact .inr ⟨.f231, .v256, x, k, d, v, r, rfl⟩
  | vfmsubadd132pdZmmEvex x k d v r => exact .inr ⟨.f132, .v512, x, k, d, v, r, rfl⟩
  | vfmsubadd213pdZmmEvex x k d v r => exact .inr ⟨.f213, .v512, x, k, d, v, r, rfl⟩
  | vfmsubadd231pdZmmEvex x k d v r => exact .inr ⟨.f231, .v512, x, k, d, v, r, rfl⟩

/-- The decoder gives back the instruction that was encoded, whatever bytes follow (R51 to R64, R69). -/
theorem decode_encode {m : DecodeMode} {p : B1RegNon512} {i : Instr} (h : i.wf m p = true) (rest : List Byte) :
    decode m p (encode i ++ rest) = .instr i rest := by
  obtain ⟨f, l, x, d, v, r, rfl⟩ | ⟨f, vl, x, k, d, v, r, rfl⟩ := i.vex_or_evex
  · rw [encode_vexInstr]
    exact decode_encodeVex (wf_vexInstr m p f l x d v r ▸ h) p f l rest
  · rw [encode_evexInstr]
    exact decode_encodeEvex (wf_evexInstr m p f vl x k d v r ▸ h) f rest

theorem length_encodeVex_le {m : DecodeMode} {x : List LegacyPrefix} {d v : VexReg} {r : VexSrc3}
    (h : wfVex m x d v r = true) (f : Form) (l : BitVec 1) :
    (x.map LegacyPrefix.byte ++ encodeVex f l d v r).length ≤ maxLength := by
  simp only [wfVex, Bool.and_eq_true, decide_eq_true_eq] at h
  obtain ⟨⟨-, hlen⟩, -⟩ := h
  have hsize : r.toSrc3.size = r.size := by cases r <;> rfl
  rw [List.length_append, List.length_map, Laws.EncodedLength.vex_length, hsize, ← Nat.add_assoc]
  exact hlen

theorem length_encodeEvex_le {m : DecodeMode} {p : B1RegNon512} {vl : VecLen} {x : List LegacyPrefix} {k : MaskSpec}
    {d v : VReg} {r : EvexSrc3} (h : wfEvex m p vl x k d v r = true) (f : Form) :
    (x.map LegacyPrefix.byte ++ encodeEvex f vl k d v r).length ≤ maxLength := by
  simp only [wfEvex, Bool.and_eq_true, decide_eq_true_eq] at h
  obtain ⟨⟨-, hlen⟩, -⟩ := h
  have hsize : r.toSrc3.size = r.size := by cases r <;> rfl
  rw [List.length_append, List.length_map, Laws.EncodedLength.evex_length, hsize, ← Nat.add_assoc]
  exact hlen

/-- The encoding of a well-formed instruction has at most 15 bytes (R52). -/
theorem length_encode_le {m : DecodeMode} {p : B1RegNon512} {i : Instr} (h : i.wf m p = true) :
    (encode i).length ≤ maxLength := by
  obtain ⟨f, l, x, d, v, r, rfl⟩ | ⟨f, vl, x, k, d, v, r, rfl⟩ := i.vex_or_evex
  · rw [encode_vexInstr]
    exact length_encodeVex_le (wf_vexInstr m p f l x d v r ▸ h) f l
  · rw [encode_evexInstr]
    exact length_encodeEvex_le (wf_evexInstr m p f vl x k d v r ▸ h) f

end Sys2Proof

namespace Sys2Proof.Machine

/-! ## The step on a decoded instruction -/

theorem fetch_of_decode {s : State} {i : Instr} {rest : List Byte}
    (h : decode s.decodeMode s.cfg.b1RegNon512 (fetchWindow s maxLength 0).1 = .instr i rest) : fetch s = .instr i := by
  simp only [fetch, h]

/-- With no breakpoint on it, the instruction that the bytes decode to is what the step runs (R12, R67). -/
theorem step_of_decode {s : State} {i : Instr} {rest : List Byte} (hc : codeHits s = 0)
    (h : decode s.decodeMode s.cfg.b1RegNon512 (fetchWindow s maxLength 0).1 = .instr i rest) :
    step s = deliver (debugTrap s i.formOp (exec i s)) := by
  rw [step, stepInstr_instr hc (fetch_of_decode h)]

theorem hitBits_eq_zero {p : Nat → Bool} (h : ∀ n < 4, p n = false) : hitBits p = 0 := by
  unfold hitBits
  rw [h 0 (by omega), h 1 (by omega), h 2 (by omega), h 3 (by omega)]
  rfl

theorem drEnabled_eq_false_of_debugQuiet {s : State} (hq : s.debugQuiet = true) {n : Nat} (hn : n < 4) :
    s.drEnabled n = false := by
  obtain ⟨hdr, -⟩ : s.dr7.extractLsb' 0 8 = 0#8 ∧ s.flagTF = false := by simpa [State.debugQuiet] using hq
  have hbit : ∀ j < 8, s.dr7.getLsbD j = false := fun j hj => by
    simpa [hj] using congrArg (BitVec.getLsbD · j) hdr
  rw [State.drEnabled, hbit _ (by omega), hbit _ (by omega)]
  rfl

/-- With no breakpoint armed and `EFLAGS.TF = 0` no trap follows an instruction (R157). -/
theorem debugTrap_of_debugQuiet {s : State} (hq : s.debugQuiet = true) (o : FormOp) (r : Result) :
    debugTrap s o r = r := by
  have hdata : dataHits s o = 0 :=
    hitBits_eq_zero fun n hn => by rw [drEnabled_eq_false_of_debugQuiet hq hn, Bool.false_and, Bool.false_and]
  have hstep : stepBit s = 0 := by
    have htf : s.flagTF = false := by simp_all [State.debugQuiet]
    simp [stepBit, htf]
  cases r with
  | next t => simp [debugTrap, hdata, hstep]
  | fault f => rfl
  | refused q => rfl

/-- Settles O9: the step unfolds to the fetched instruction, whose debug trap is silent when nothing is armed. -/
theorem stepRunsDecodedInstruction : Obligations.StepRunsDecodedInstruction := by
  intro s i rest hc hdec
  have hstep := step_of_decode hc hdec
  refine ⟨hstep, fun hq t ht => ?_, fun hq e u hf => ?_⟩
  · rw [hstep, debugTrap_of_debugQuiet hq, ht]
    rfl
  · rw [hstep, debugTrap_of_debugQuiet hq, hf]
    rfl

/-! ## The fetched window -/

/-- Where the bytes `bs` can be fetched from byte `k` on, the window begins with them, whatever comes after (R36). -/
theorem fetchWindow_starts_with {s : State} (bs : List Byte) :
    ∀ n k : Nat, bs.length ≤ n →
      (∀ (j : Nat) (h : j < bs.length), fetchStop s (k + j) = none ∧ fetchByte s (k + j) = bs[j]) →
      ∃ rest, (fetchWindow s n k).1 = bs ++ rest := by
  induction bs with
  | nil => exact fun n k _ _ => ⟨_, rfl⟩
  | cons b bs ih =>
    intro n k hlen hbytes
    obtain ⟨hstop, hbyte⟩ := hbytes 0 (Nat.zero_lt_succ _)
    cases n with
    | zero => cases hlen
    | succ n =>
      obtain ⟨rest, hrest⟩ := ih n (k + 1) (Nat.le_of_succ_le_succ hlen) fun j hj => by
        rw [Nat.add_right_comm k 1 j]
        exact hbytes (j + 1) (Nat.succ_lt_succ hj)
      refine ⟨rest, ?_⟩
      simp only [Nat.add_zero, List.getElem_cons_zero] at hstop hbyte
      simp only [fetchWindow, hstop, hbyte, hrest, List.cons_append]

/-- Settles O10: the window begins with the encoding, which is at most 15 bytes long and decodes back. -/
theorem storedInstructionRuns : Obligations.StoredInstructionRuns := by
  intro s i hwf hc hbytes
  obtain ⟨rest, hwindow⟩ := fetchWindow_starts_with (encode i) maxLength 0 (length_encode_le hwf) fun j hj => by
    rw [Nat.zero_add]
    exact hbytes j hj
  exact step_of_decode hc (hwindow ▸ decode_encode hwf rest)

end Sys2Proof.Machine
end

section
/-! PROOFS. What the decoder answers is well formed and lies in the bytes it was given (O3). -/

namespace Sys2Proof

/-! ## The parameters of the instruction a row names -/

theorem formOp_vexInstr (f : Form) (l : BitVec 1) (x : List LegacyPrefix) (d v : VexReg) (r : VexSrc3) :
    (vexInstr f l x d v r).formOp = vexOp f (if l = 0#1 then .v128 else .v256) x d v r := by
  unfold vexInstr
  split <;> cases f <;> rfl

theorem formOp_evexInstr (f : Form) (vl : VecLen) (x : List LegacyPrefix) (k : MaskSpec) (d v : VReg) (r : EvexSrc3) :
    (evexInstr f vl x k d v r).formOp = evexOp f vl x k d v r := by
  cases f <;> cases vl <;> rfl

theorem len_vexInstr (f : Form) (l : BitVec 1) (x : List LegacyPrefix) (d v : VexReg) (r : VexSrc3) :
    (vexInstr f l x d v r).formOp.len = x.length + 5 + r.size := by
  rw [formOp_vexInstr]
  cases r <;> rfl

theorem len_evexInstr (f : Form) (vl : VecLen) (x : List LegacyPrefix) (k : MaskSpec) (d v : VReg) (r : EvexSrc3) :
    (evexInstr f vl x k d v r).formOp.len = x.length + 6 + r.size := by
  rw [formOp_evexInstr]
  cases r <;> rfl

/-! ## Displacement, SIB byte and ModRM -/

theorem disp32?_length {bs rest : List Byte} {d : BitVec 32} (h : disp32? bs = some (d, rest)) :
    bs.length = 4 + rest.length := by
  unfold disp32? at h
  split at h
  · cases h
    simp only [List.length_cons]
    omega
  · cases h

theorem map_disp32? {α : Type} {g : BitVec 32 → α} {bs rest : List Byte} {a : α}
    (h : ((disp32? bs).map fun p => (g p.1, p.2)) = some (a, rest)) :
    ∃ d, a = g d ∧ bs.length = 4 + rest.length := by
  obtain ⟨⟨d, r⟩, hd, heq⟩ := Option.map_eq_some_iff.mp h
  cases heq
  exact ⟨d, rfl, disp32?_length hd⟩

/-- A displacement takes its bytes, and is absent only under `mod = 00` (R60). -/
theorem disp?_sound {md : BitVec 2} {bs rest : List Byte} {d : Disp} (h : disp? md bs = some (d, rest)) :
    bs.length = d.size + rest.length ∧ (d = .none → md = 0b00#2) := by
  simp only [disp?] at h
  split at h
  case isTrue h0 =>
    cases h
    exact ⟨(Nat.zero_add _).symm, fun _ => h0⟩
  case isFalse =>
    split at h
    · split at h
      · cases h
        exact ⟨Nat.add_comm .., nofun⟩
      · cases h
    · obtain ⟨v, rfl, hlen⟩ := map_disp32? h
      exact ⟨hlen, nofun⟩

theorem append_low_bits (x : BitVec 1) (r : BitVec 3) : (x ++ r).extractLsb' 0 3 = r := by
  simp (disch := decide) only [BitVec.extractLsb'_append_eq_of_add_le, BitVec.extractLsb'_eq_self]

theorem gReg_low_of_bit3 (r : BitVec 3) : (0#1 ++ r : GReg) < 8#4 := by
  revert r; decide

/-- What a memory operand read under the extension bits `x` and `b` from `n` bytes satisfies (R24, R59). -/
structure MemOperand.ReadFrom (x b : BitVec 1) (n : Nat) (o : MemOperand) : Prop where
  length : n = o.size
  wf : o.wf = true
  low : x = 0#1 → b = 0#1 → o.low = true

/-- What a third operand read from ModRM and the `n` bytes after it satisfies. -/
def RmField.ReadFrom (x b : BitVec 1) (modrm : Byte) (n : Nat) : RmField → Prop
  | .reg _ => n = 0
  | .mem o => modrm.extractLsb' 6 2 ≠ 0b11#2 ∧ o.ReadFrom x b n

theorem wfIndex_sib (i : GReg) : wfIndex (if i = 4#4 then none else some i) = true := by
  split <;> simp_all [wfIndex]

theorem low_index_sib (r : BitVec 3) (hi : GReg) (h : hi = 0#1 ++ r) :
    (if hi = 4#4 then none else some hi).all (· < 8#4) = true := by
  split
  · rfl
  · simpa [h] using gReg_low_of_bit3 r

/-- The operand that a SIB byte names is one the encoding has (R59). -/
theorem sibOperand?_sound {x b : BitVec 1} {md : BitVec 2} {sib : Byte} {bs rest : List Byte} {o : MemOperand}
    (h : sibOperand? x b md sib bs = some (o, rest)) : ∃ n, bs.length + 1 = n + rest.length ∧ o.ReadFrom x b n := by
  simp only [sibOperand?] at h
  split at h
  case isTrue =>
    obtain ⟨d, rfl, hlen⟩ := map_disp32? h
    exact ⟨5, by omega, rfl, wfIndex_sib _, fun hx _ => low_index_sib _ _ (by rw [hx])⟩
  case isFalse hbase =>
    obtain ⟨⟨d, r⟩, hd, heq⟩ := Option.map_eq_some_iff.mp h
    cases heq
    obtain ⟨hlen, hnone⟩ := disp?_sound hd
    refine ⟨1 + d.size, by rw [hlen]; simp only; omega, rfl, ?_, ?_⟩
    · have hsib : wfSibBase (b ++ sib.extractLsb' 0 3) d = true := by
        simp only [wfSibBase, append_low_bits, Bool.or_eq_true, bne_iff_ne]
        by_contra hc
        push Not at hc
        exact hbase ⟨hc.2, hnone hc.1⟩
      simp [MemOperand.wf, hsib, wfIndex_sib]
    · rintro rfl rfl
      simp only [MemOperand.low, gReg_low_of_bit3, decide_true, Bool.true_and]
      exact low_index_sib _ _ rfl

/-- The third operand is one the encoding has (R58 to R60). -/
theorem rmField?_sound {x b : BitVec 1} {modrm : Byte} {bs rest : List Byte} {rm : RmField}
    (h : rmField? x b modrm bs = some (rm, rest)) : ∃ n, bs.length = n + rest.length ∧ rm.ReadFrom x b modrm n := by
  simp only [rmField?] at h
  split at h
  case isTrue =>
    cases h
    exact ⟨0, (Nat.zero_add _).symm, rfl⟩
  case isFalse hmod =>
    split at h
    case isTrue =>
      split at h
      · obtain ⟨⟨o, r⟩, ho, heq⟩ := Option.map_eq_some_iff.mp h
        cases heq
        obtain ⟨n, hlen, hread⟩ := sibOperand?_sound ho
        exact ⟨n, hlen, hmod, hread⟩
      · cases h
    case isFalse hsib =>
      split at h
      case isTrue =>
        obtain ⟨⟨d, r⟩, hd, heq⟩ := Option.map_eq_some_iff.mp h
        cases heq
        exact ⟨4, disp32?_length hd, hmod, rfl, rfl, fun _ _ => rfl⟩
      case isFalse hrip =>
        obtain ⟨⟨d, r⟩, hd, heq⟩ := Option.map_eq_some_iff.mp h
        cases heq
        obtain ⟨hlen, hnone⟩ := disp?_sound hd
        refine ⟨d.size, hlen, hmod, rfl, ?_, ?_⟩
        · simp only [MemOperand.wf, wfBase, append_low_bits, Bool.and_eq_true, Bool.or_eq_true, bne_iff_ne]
          refine ⟨hsib, ?_⟩
          by_contra hc
          push Not at hc
          exact hrip ⟨hnone hc.1, hc.2⟩
        · rintro - rfl
          exact decide_eq_true (gReg_low_of_bit3 _)

/-! ## What the mode asks -/

theorem wfModeReg_of_low {m : DecodeMode} {r : VReg} (hm : m ≠ .legacy) (h32 : m = .mode32 → r < 8#5) :
    wfModeReg m r = true := by
  cases m with
  | mode64 => rfl
  | mode32 => exact decide_eq_true (h32 rfl)
  | legacy => exact absurd rfl hm

/-- A memory operand that is read is one the mode has (R24, R69, R127). -/
theorem wfModeMem_of_readFrom {m : DecodeMode} {pfx : List LegacyPrefix} {x b : BitVec 1} {modrm : Byte} {n : Nat}
    {o : MemOperand} (hm : m ≠ .legacy) (h32 : m = .mode32 → x = 0#1 ∧ b = 0#1)
    (h16 : addressing16? m pfx modrm = false) (h : RmField.ReadFrom x b modrm n (.mem o)) :
    (o.wf && wfModeMem m pfx o) = true := by
  obtain ⟨hmod, -, hwf, hlow⟩ := h
  cases m with
  | mode64 => simp [hwf, wfModeMem]
  | mode32 =>
    obtain ⟨hx, hb⟩ := h32 rfl
    simp_all [addressing16?, wfModeMem]
  | legacy => exact absurd rfl hm

theorem extB_of_mode32 {m : DecodeMode} (h : m = .mode32) (b : BitVec 1) : extB m b = 0#1 := if_pos h

/-- Outside 64-bit mode the byte after `C4H` or `62H` has its top bits set, so that the fields `R` and `X` are 0 (R67). -/
theorem payload_top_bits {p : Byte} (h : p.extractLsb' 6 2 = 0b11#2) :
    ~~~p.extractLsb' 7 1 = 0#1 ∧ ~~~p.extractLsb' 6 1 = 0#1 := by
  have hsplit : p.extractLsb' 7 1 ++ p.extractLsb' 6 1 = 0b11#2 :=
    (BitVec.extractLsb'_append_extractLsb'_eq_extractLsb' (by rfl)).trans h
  revert hsplit
  generalize p.extractLsb' 7 1 = r
  generalize p.extractLsb' 6 1 = x
  revert r x
  decide

/-- In `Mode32` the extension bits of the third operand are 0 (R69). -/
theorem payload_ext_bits {m : DecodeMode} {p : Byte} (h32 : m = .mode32 → p.extractLsb' 6 2 = 0b11#2) (b : BitVec 1)
    (hm : m = .mode32) : ~~~p.extractLsb' 6 1 = 0#1 ∧ extB m b = 0#1 :=
  ⟨(payload_top_bits (h32 hm)).2, extB_of_mode32 hm b⟩

theorem vexReg_low_of_bit3 (r : BitVec 3) : (0#1 ++ r : VexReg).setWidth 5 < 8#5 := by
  revert r; decide

theorem vexReg_low_of_and (r : VexReg) : (r &&& 7#4).setWidth 5 < 8#5 := by
  revert r; decide

theorem vreg_low_of_bits (r : BitVec 3) : (0#1 ++ 0#1 ++ r : VReg) < 8#5 := by
  revert r; decide

theorem vreg_low_of_vvvv {v : BitVec 4} (h : v.extractLsb' 3 1 = 1#1) : (0#1 ++ ~~~v : VReg) < 8#5 := by
  revert v; decide

/-! ## Operands -/

/-- The instruction `i` was read, with `rest` left over, from `n` bytes: it is no longer than they are, and well formed unless
it is too long. -/
structure Instr.ReadFrom (m : DecodeMode) (p : B1RegNon512) (n : Nat) (i : Instr) (rest : List Byte) : Prop where
  length : i.formOp.len + rest.length ≤ n
  wf : i.formOp.len ≤ 15 → i.wf m p = true

/-- What `wfVex` asks of the third operand. -/
def VexSrc3.wfIn (m : DecodeMode) (x : List LegacyPrefix) : VexSrc3 → Bool
  | .reg q => wfModeReg m (q.setWidth 5)
  | .mem o => o.wf && wfModeMem m x o

/-- What `wfEvex` asks of the third operand. -/
def EvexSrc3.wfIn (m : DecodeMode) (p : B1RegNon512) (vl : VecLen) (x : List LegacyPrefix) : EvexSrc3 → Bool
  | .reg q => wfModeReg m q
  | .regB q rc => wfModeReg m q && wfRegB p vl rc
  | .mem o => o.wf && wfModeMem m x o
  | .bcst o => o.wf && wfModeMem m x o

theorem wfVex_eq (m : DecodeMode) (x : List LegacyPrefix) (d v : VexReg) (r : VexSrc3) :
    wfVex m x d v r = (wfModeReg m (d.setWidth 5) && wfModeReg m (v.setWidth 5) && decide (x.length + 5 + r.size ≤ 15) &&
      r.wfIn m x) := by
  cases r <;> rfl

theorem wfEvex_eq (m : DecodeMode) (p : B1RegNon512) (vl : VecLen) (x : List LegacyPrefix) (k : MaskSpec) (d v : VReg)
    (r : EvexSrc3) : wfEvex m p vl x k d v r = (wfModeReg m d && wfModeReg m v && k.wf &&
      decide (x.length + 6 + r.size ≤ 15) && r.wfIn m p vl x) := by
  cases r <;> rfl

theorem readFrom_vexInstr {m : DecodeMode} {p : B1RegNon512} {n : Nat} {rest : List Byte} {x : List LegacyPrefix}
    {d v : VexReg} {r : VexSrc3} (hlen : x.length + 5 + r.size + rest.length ≤ n)
    (hd : wfModeReg m (d.setWidth 5) = true) (hv : wfModeReg m (v.setWidth 5) = true) (hr : r.wfIn m x = true) (f : Form)
    (l : BitVec 1) : (vexInstr f l x d v r).ReadFrom m p n rest where
  length := by rwa [len_vexInstr]
  wf h15 := by
    rw [len_vexInstr] at h15
    rw [wf_vexInstr, wfVex_eq, hd, hv, hr, decide_eq_true h15]
    rfl

theorem readFrom_evexInstr {m : DecodeMode} {p : B1RegNon512} {vl : VecLen} {n : Nat} {rest : List Byte}
    {x : List LegacyPrefix} {k : MaskSpec} {d v : VReg} {r : EvexSrc3} (hlen : x.length + 6 + r.size + rest.length ≤ n)
    (hd : wfModeReg m d = true) (hv : wfModeReg m v = true) (hk : k.wf = true) (hr : r.wfIn m p vl x = true) (f : Form) :
    (evexInstr f vl x k d v r).ReadFrom m p n rest where
  length := by rwa [len_evexInstr]
  wf h15 := by
    rw [len_evexInstr] at h15
    rw [wf_evexInstr, wfEvex_eq, hd, hv, hk, hr, decide_eq_true h15]
    rfl

theorem wfRegB_regBLen (p : B1RegNon512) (ll : BitVec 2) : wfRegB p (regBLen p ll) ll = true := by
  revert ll
  cases p <;> decide

/-- The operands of a VEX form, read after `x` prefixes and four bytes (R58 to R60, R62). -/
theorem decodeVexOperands_sound {m : DecodeMode} {x : List LegacyPrefix} {bad : Bool} {f : Form} {b1 b2 : Byte}
    {bs rest : List Byte} {i : Instr} (p : B1RegNon512) (hm : bad = false → m ≠ .legacy)
    (h32 : m = .mode32 → b1.extractLsb' 6 2 = 0b11#2) (h : decodeVexOperands m x bad f b1 b2 bs = .instr i rest) :
    i.ReadFrom m p (x.length + 4 + bs.length) rest := by
  unfold decodeVexOperands at h
  split at h
  · cases h
  next modrm bs' =>
  simp only at h
  split at h
  · split at h <;> cases h
  next h16 =>
  split at h
  · cases h
  next rm tl hrm =>
  split at h
  · cases h
  next hbad =>
  replace hm := hm (by simpa using hbad)
  obtain ⟨n, hlen, hread⟩ := rmField?_sound hrm
  have hdest : wfModeReg m ((~~~b1.extractLsb' 7 1 ++ modrm.extractLsb' 3 3 : VexReg).setWidth 5) = true :=
    wfModeReg_of_low hm fun hm => by
      rw [(payload_top_bits (h32 hm)).1]
      exact vexReg_low_of_bit3 _
  have hsrc2 : wfModeReg m ((if m = .mode32 then ~~~b2.extractLsb' 3 4 &&& 7#4 else ~~~b2.extractLsb' 3 4).setWidth 5) = true :=
    wfModeReg_of_low hm fun hm => by
      rw [if_pos hm]
      exact vexReg_low_of_and _
  split at h
  case h_1 r =>
    cases h
    obtain rfl : n = 0 := hread
    refine readFrom_vexInstr ?_ hdest hsrc2 ?_ f _
    · simp only [VexSrc3.size, List.length_cons]
      omega
    · exact wfModeReg_of_low hm fun hm => by
        rw [extB_of_mode32 hm]
        exact vexReg_low_of_bit3 _
  case h_2 o =>
    cases h
    obtain rfl : n = o.size := hread.2.length
    refine readFrom_vexInstr ?_ hdest hsrc2 ?_ f _
    · simp only [VexSrc3.size, List.length_cons]
      omega
    · exact wfModeMem_of_readFrom hm (payload_ext_bits h32 _) (by simpa using h16) hread

theorem decodeVex_sound {m : DecodeMode} {x : List LegacyPrefix} {bad : Bool} {bs rest : List Byte} {i : Instr}
    (p : B1RegNon512) (h : decodeVex m x bad bs = .instr i rest) : i.ReadFrom m p (x.length + 1 + bs.length) rest := by
  unfold decodeVex at h
  split at h
  · cases h
  next b1 bs1 =>
  split at h
  · cases h
  next htop =>
  split at h
  · next b2 op bs3 =>
    simp only at h
    split at h
    · split at h
      · have h32 : m = .mode32 → b1.extractLsb' 6 2 = 0b11#2 := by
          rintro rfl
          simpa using htop
        have hread := decodeVexOperands_sound p (by rintro hb rfl; simp at hb) h32 h
        have hlen : x.length + 1 + (b1 :: b2 :: op :: bs3).length = x.length + 4 + bs3.length := by
          simp only [List.length_cons]
          omega
        rwa [hlen]
      · split at h <;> cases h
    · split at h <;> cases h
  · cases h

/-- What is not refused in `Mode32` has the bits that would name a register above 7 at 0 (R69). -/
theorem low_of_not_mode32Refused {m : DecodeMode} {p0 p1 p2 : Byte} (hm : m = .mode32)
    (h : ¬mode32Refused m p0 p1 p2 = true) :
    ~~~p0.extractLsb' 4 1 = 0#1 ∧ (p1.extractLsb' 3 4).extractLsb' 3 1 = 1#1 ∧ ~~~p2.extractLsb' 3 1 = 0#1 := by
  obtain ⟨⟨h0, h1⟩, h2⟩ : (p0.extractLsb' 4 1 = 1#1 ∧ p1.extractLsb' 6 1 = 1#1) ∧ p2.extractLsb' 3 1 = 1#1 := by
    simpa [mode32Refused, hm] using h
  have htop : (p1.extractLsb' 3 4).extractLsb' 3 1 = p1.extractLsb' 6 1 := by
    ext j hj
    obtain rfl : j = 0 := by omega
    simp
  rw [h0, h2, htop, h1]
  decide

theorem wfModeReg_evexDest {m : DecodeMode} {p0 p1 p2 : Byte} (hm : m ≠ .legacy)
    (h32 : m = .mode32 → p0.extractLsb' 6 2 = 0b11#2) (hr : ¬mode32Refused m p0 p1 p2 = true) (reg : BitVec 3) :
    wfModeReg m (~~~p0.extractLsb' 4 1 ++ ~~~p0.extractLsb' 7 1 ++ reg) = true :=
  wfModeReg_of_low hm fun hm => by
    rw [(low_of_not_mode32Refused hm hr).1, (payload_top_bits (h32 hm)).1]
    exact vreg_low_of_bits reg

theorem wfModeReg_evexSrc2 {m : DecodeMode} {p0 p1 p2 : Byte} (hm : m ≠ .legacy) (hr : ¬mode32Refused m p0 p1 p2 = true) :
    wfModeReg m (~~~p2.extractLsb' 3 1 ++ ~~~p1.extractLsb' 3 4) = true :=
  wfModeReg_of_low hm fun hm => by
    obtain ⟨-, hv, hv'⟩ := low_of_not_mode32Refused hm hr
    rw [hv']
    exact vreg_low_of_vvvv hv

theorem wfModeReg_evexRm {m : DecodeMode} {x b : BitVec 1} (hm : m ≠ .legacy) (h32 : m = .mode32 → x = 0#1 ∧ b = 0#1)
    (rm : BitVec 3) : wfModeReg m (x ++ b ++ rm) = true :=
  wfModeReg_of_low hm fun hm => by
    obtain ⟨rfl, rfl⟩ := h32 hm
    exact vreg_low_of_bits rm

/-- The operands of an EVEX form, read after `x` prefixes and five bytes (R58 to R60, R62 to R64). -/
theorem decodeEvexOperands_sound {m : DecodeMode} {p : B1RegNon512} {x : List LegacyPrefix} {bad : Bool} {f : Form}
    {p0 p1 p2 : Byte} {bs rest : List Byte} {i : Instr} (hm : bad = false → m ≠ .legacy)
    (h32 : m = .mode32 → p0.extractLsb' 6 2 = 0b11#2) (h : decodeEvexOperands m p x bad f p0 p1 p2 bs = .instr i rest) :
    i.ReadFrom m p (x.length + 5 + bs.length) rest := by
  unfold decodeEvexOperands at h
  split at h
  · cases h
  next modrm bs' =>
  simp only at h
  split at h
  · repeat' split at h
    all_goals cases h
  next h16 =>
  split at h
  · cases h
  next rm tl hrm =>
  split at h
  · cases h
  next hbad =>
  obtain ⟨hb, hk⟩ := not_or.mp hbad
  replace hm := hm (by simpa using hb)
  replace hk := (Bool.not_eq_false _).mp hk
  obtain ⟨n, hlen, hread⟩ := rmField?_sound hrm
  have hext := payload_ext_bits h32 (~~~p0.extractLsb' 5 1)
  split at h
  case h_1 r =>
    obtain rfl : n = 0 := hread
    split at h
    · split at h
      · cases h
      next hr =>
      cases h
      refine readFrom_evexInstr ?_ (wfModeReg_evexDest hm h32 hr _) (wfModeReg_evexSrc2 hm hr) hk ?_ f
      · simp only [EvexSrc3.size, List.length_cons]
        omega
      · exact Bool.and_eq_true_iff.mpr ⟨wfModeReg_evexRm hm hext r, wfRegB_regBLen p _⟩
    · split at h
      · cases h
      split at h
      · cases h
      next hr =>
      cases h
      refine readFrom_evexInstr ?_ (wfModeReg_evexDest hm h32 hr _) (wfModeReg_evexSrc2 hm hr) hk ?_ f
      · simp only [EvexSrc3.size, List.length_cons]
        omega
      · exact wfModeReg_evexRm hm hext r
  case h_2 o =>
    obtain rfl : n = o.size := hread.2.length
    have ho := wfModeMem_of_readFrom hm hext (by simpa using h16) hread
    split at h
    · cases h
    split at h
    · cases h
    next hr =>
    cases h
    refine readFrom_evexInstr ?_ (wfModeReg_evexDest hm h32 hr _) (wfModeReg_evexSrc2 hm hr) hk ?_ f
    · split <;> simp only [EvexSrc3.size, List.length_cons] <;> omega
    · split <;> exact ho

theorem decodeEvex_sound {m : DecodeMode} {p : B1RegNon512} {x : List LegacyPrefix} {bad : Bool} {bs rest : List Byte}
    {i : Instr} (h : decodeEvex m p x bad bs = .instr i rest) : i.ReadFrom m p (x.length + 1 + bs.length) rest := by
  unfold decodeEvex at h
  split at h
  · cases h
  next p0 bs1 =>
  split at h
  · cases h
  next htop =>
  split at h
  · next p1 p2 op bs4 =>
    simp only at h
    split at h
    · split at h
      · have h32 : m = .mode32 → p0.extractLsb' 6 2 = 0b11#2 := by
          rintro rfl
          simpa using htop
        have hread := decodeEvexOperands_sound (by rintro hb rfl; simp at hb) h32 h
        have hlen : x.length + 1 + (p0 :: p1 :: p2 :: op :: bs4).length = x.length + 5 + bs4.length := by
          simp only [List.length_cons]
          omega
        rwa [hlen]
      · split at h <;> cases h
    · split at h <;> cases h
  · cases h

/-! ## The whole instruction -/

/-- The prefixes and what follows them are no more bytes than there were. -/
theorem splitPrefixes_length (m : DecodeMode) (bs : List Byte) :
    (splitPrefixes m bs).1.length + (splitPrefixes m bs).2.2.length ≤ bs.length := by
  induction bs with
  | nil => exact le_rfl
  | cons b bs ih =>
    unfold splitPrefixes
    split
    · simp only [List.length_cons]
      omega
    · split
      · simp only [List.length_cons]
        omega
      · simp

/-- A decoded instruction lies in the bytes it was read from, and is well formed unless it is longer than 15 bytes. -/
theorem decode_sound {m : DecodeMode} {p : B1RegNon512} {bs rest : List Byte} {i : Instr}
    (h : decode m p bs = .instr i rest) : i.ReadFrom m p bs.length rest := by
  have hsplit := splitPrefixes_length m bs
  unfold decode at h
  split at h
  · cases h
  next x bad b tl hs =>
  rw [hs, List.length_cons] at hsplit
  have hread : i.ReadFrom m p (x.length + 1 + tl.length) rest := by
    split at h
    · exact decodeVex_sound p h
    · split at h
      · exact decodeEvex_sound h
      · split at h
        · unfold decodeVex2 at h
          repeat' split at h
          all_goals cases h
        · cases h
  exact ⟨hread.length.trans (by simp only at hsplit; omega), hread.wf⟩

/-- Settles O3: an instruction read from at most 15 bytes is no longer than they are, and its operands are the encoding's. -/
theorem decodedInstructionWellFormed : Obligations.DecodedInstructionWellFormed := by
  intro m p bs i rest h15 h
  obtain ⟨hlen, hwf⟩ := decode_sound h
  exact hwf (by omega)

end Sys2Proof
end

section
/-! PROOFS. What one step may write: the flags that lanes raise, the effect of an instruction and of taking an exception, and
from them the invariant and the control state (O12 to O14, O25); the state after reset (O11, O57). -/

namespace Sys2Proof.Machine

/-! ## The flags that lanes raise -/

/-- The flags without `ZE`, which no lane of these forms raises (R20, R129). -/
def NoZeroDivide (f : FpFlags) : Prop := f &&& 0b000100#6 = 0

@[simp] theorem noZeroDivide_zero : NoZeroDivide 0#6 := rfl
@[simp] theorem noZeroDivide_flagIE : NoZeroDivide flagIE := rfl
@[simp] theorem noZeroDivide_flagDE : NoZeroDivide flagDE := rfl
@[simp] theorem noZeroDivide_flagOE : NoZeroDivide flagOE := rfl
@[simp] theorem noZeroDivide_flagUE : NoZeroDivide flagUE := rfl
@[simp] theorem noZeroDivide_flagPE : NoZeroDivide flagPE := rfl

@[simp] theorem NoZeroDivide.or {f g : FpFlags} (hf : NoZeroDivide f) (hg : NoZeroDivide g) : NoZeroDivide (f ||| g) := by
  unfold NoZeroDivide at *
  rw [BitVec.and_comm, BitVec.and_or_distrib_left, BitVec.and_comm, hf, BitVec.and_comm, hg]
  rfl

/-- A part of the raised flags lacks `ZE` too. -/
theorem NoZeroDivide.and {f : FpFlags} (hf : NoZeroDivide f) (g : FpFlags) : NoZeroDivide (g &&& f) := by
  unfold NoZeroDivide at *
  rw [BitVec.and_assoc, hf]
  exact BitVec.and_zero

theorem roundSum_noZeroDivide (rc : RoundControl) (ftz um om : Bool) (x : Exact) :
    NoZeroDivide (roundSum rc ftz um om x).2 := by
  simp only [roundSum]
  split_ifs <;> simp

theorem fmaOrdered_noZeroDivide (rc : RoundControl) (ftz um om : Bool) (a b c : Lane) :
    NoZeroDivide (fmaOrdered rc ftz um om a b c).2 := by
  have hde : NoZeroDivide (if fpDenormal a || fpDenormal b || fpDenormal c then flagDE else 0) := by split <;> simp
  simp only [fmaOrdered]
  split
  · exact noZeroDivide_flagIE
  · split
    · exact hde
    · split
      · exact hde
      · split
        · exact hde
        · exact hde.or (roundSum_noZeroDivide ..)

theorem fma64_noZeroDivide (izq : Bool) (rc : RoundControl) (daz ftz um om : Bool) (a b c : Lane) (neg : Bool) :
    NoZeroDivide (fma64 izq rc daz ftz um om a b c neg).2 := by
  unfold fma64
  split
  · simp only [nanResult]
    split <;> simp
  · exact fmaOrdered_noZeroDivide ..

theorem unionFlags_noZeroDivide (s : State) (o : FormOp) (n : Nat) : NoZeroDivide (unionFlags s o n) := by
  induction n with
  | zero => exact noZeroDivide_zero
  | succ n ih =>
    refine ih.or ?_
    split
    · exact fma64_noZeroDivide ..
    · exact noZeroDivide_zero

theorem raisedFlags_noZeroDivide (s : State) (o : FormOp) : NoZeroDivide (raisedFlags s o) :=
  unionFlags_noZeroDivide s o _

/-! ## What an instruction can change before an exception is delivered -/

/-- All that an instruction, completing or ending in an exception, may write (R104, R139, R150, R157), whatever gates there
are: of `MXCSR` flags other than `ZE` are set, and without AVX-512 no lane above bit 255 is written. -/
structure InstrEffect (s u : State) : Prop where
  frame : u = { s with
    zmm := u.zmm, mxcsr := u.mxcsr, rip := u.rip, ripPast := u.ripPast, cr2 := u.cr2, dr6 := u.dr6, freeCount := u.freeCount }
  flags : ∃ f : FpFlags, NoZeroDivide f ∧ u.mxcsr = s.mxcsr ||| f.setWidth 32
  upper : s.cfg.hasAVX512F = false → ∀ r j, 4 ≤ j → laneOf (u.readZmm r) j = laneOf (s.readZmm r) j

theorem InstrEffect.of_recordFault (s : State) (e : Exc) (a : Word64) : InstrEffect s (s.recordFault e a) where
  frame := by cases e <;> rfl
  flags := ⟨0, noZeroDivide_zero, by simp⟩
  upper _ r j _ := by simp only [State.readZmm, State.recordFault_zmm]

theorem InstrEffect.refl (s : State) : InstrEffect s s := .of_recordFault s .ud 0

theorem InstrEffect.of_leaveFlags (s : State) {shown raised : FpFlags} (hs : NoZeroDivide shown) (hr : NoZeroDivide raised) :
    InstrEffect s (s.leaveFlags shown raised) := by
  unfold State.leaveFlags
  split
  · exact ⟨rfl, ⟨shown, hs, rfl⟩, fun _ _ _ _ => rfl⟩
  · exact ⟨rfl, ⟨_, hr.and _, rfl⟩, fun _ _ _ _ => rfl⟩

/-- Recording debug causes in `DR6` is no further effect (R157). -/
theorem InstrEffect.set_dr6 {s u : State} (h : InstrEffect s u) (d : BitVec 64) : InstrEffect s { u with dr6 := d } where
  frame := by rw [h.frame]
  flags := h.flags
  upper := h.upper

/-! ## A form that completes -/

/-- Without AVX-512 a form that is enabled has at most four lanes (R2, R142). -/
theorem vecLanes_le_four {s : State} {i : Instr} (he : formEnabled s i.formOp = true) (hn : s.cfg.hasAVX512F = false) :
    vecLanes i.formOp.vl ≤ 4 := by
  obtain ⟨f, l, x, d, v, r, rfl⟩ | ⟨f, vl, x, k, d, v, r, rfl⟩ := i.vex_or_evex
  · simp only [formOp_vexInstr, vexOp]
    split <;> decide
  · simp [formOp_evexInstr, formEnabled, cpuidOk, evexOp, hn] at he

/-- What a completed form leaves: the write-back after its flags (R104). -/
theorem exec_next {i : Instr} {s t : State} (h : exec i s = .next t) :
    Completes s i.formOp ∧ t = writeBack s i.formOp (afterFlags s i.formOp) :=
  execForm_next_iff.mp (exec_eq_execForm i s ▸ h)

@[simp] theorem afterFlags_zmm (s : State) (o : FormOp) : (afterFlags s o).zmm = s.zmm := by
  unfold afterFlags
  split <;> rfl

theorem newLane_upper {s : State} {o : FormOp} {j : Nat} (hvl : vecLanes o.vl ≤ j) (hmax : j < maxLanes s.cfg) :
    newLane s o j = 0 := by
  rw [newLane, if_neg (Nat.not_lt.mpr hvl), if_pos hmax]

/-- Above `VL` and `MAX_VL` a form writes the old lane back. -/
theorem newLane_above {s : State} {o : FormOp} {j : Nat} (hvl : vecLanes o.vl ≤ j) (hmax : maxLanes s.cfg ≤ j) :
    newLane s o j = laneOf (s.readZmm o.dest) j := by
  rw [newLane, if_neg (Nat.not_lt.mpr hvl), if_neg (Nat.not_lt.mpr hmax)]

theorem maxLanes_le_eight (c : Config) : maxLanes c ≤ 8 := by
  unfold maxLanes
  split <;> decide

/-- Settles O25: the write-back puts `newLane` in each lane, which is 0 from `VL` up to `MAX_VL`. -/
theorem upperBitsZeroed : Obligations.UpperBitsZeroed := by
  intro i s t h j hvl hmax
  obtain ⟨-, rfl⟩ := exec_next h
  rw [readZmm_writeBack_self, laneOf_ofLanes _ _ (hmax.trans_le (maxLanes_le_eight _)), newLane_upper hvl hmax]

theorem InstrEffect.of_exec_next {i : Instr} {s t : State} (h : exec i s = .next t) : InstrEffect s t := by
  obtain ⟨⟨he, -, -, -⟩, rfl⟩ := exec_next h
  refine ⟨?_, ?_, fun hn r j hj => ?_⟩
  · unfold afterFlags
    split <;> rfl
  · unfold afterFlags
    split
    · exact ⟨0, noZeroDivide_zero, by simp⟩
    · exact ⟨_, raisedFlags_noZeroDivide s _, rfl⟩
  · by_cases hr : r = i.formOp.dest
    · subst hr
      by_cases hj8 : j < 8
      · have hmax : maxLanes s.cfg = 4 := by simp [maxLanes, hn]
        rw [readZmm_writeBack_self, laneOf_ofLanes _ _ hj8, newLane_above ((vecLanes_le_four he hn).trans hj) (hmax ▸ hj)]
      · rw [laneOf_high _ (Nat.le_of_not_lt hj8), laneOf_high _ (Nat.le_of_not_lt hj8)]
    · rw [readZmm_writeBack_other _ _ _ hr, State.readZmm, State.readZmm]
      simp

/-! ## A result that is no completion -/

/-- `r` ends the instruction short of completion; an exception leaves `s` but for what an instruction may write. -/
inductive Stops (s : State) : Result → Prop where
  | exception {u : State} (e : Exc) (h : InstrEffect s u) : Stops s (raise e u)
  | unmapped (pa : Word64) : Stops s (.fault (.unmapped pa))
  | refused (q : Refusal) : Stops s (.refused q)

theorem Stops.ne_next {s : State} {r : Result} (h : Stops s r) (t : State) : r ≠ .next t := by
  rintro rfl
  cases h

theorem Stops.instrEffect {s u : State} {e : Exc} (h : Stops s (.fault (.exception e u))) : InstrEffect s u := by
  cases h with
  | exception _ h => exact h

theorem Stops.of_raiseTranslation (s : State) (e : Exc) (a : Word64) : Stops s (raiseTranslation e a s) :=
  .exception e (.of_recordFault s e a)

theorem stops_fetchStop {s : State} {k : Nat} {r : Result} (h : fetchStop s k = some r) : Stops s r := by
  unfold fetchStop at h
  split at h
  · split at h
    · cases h
      exact .of_raiseTranslation s _ _
    · split at h
      · cases h
      · cases h
        exact .refused _
      · cases h
        exact .unmapped _
  · cases h
    exact .exception _ (.refl s)

theorem stops_overlong (s : State) : Stops s (overlong s) := by
  obtain h | h | ⟨k, r, hr, h⟩ := overlong_cases s
  · rw [h]
    exact .exception _ (.refl s)
  · rw [h]
    exact .refused _
  · rw [h]
    exact stops_fetchStop hr

/-- A fetch that stops in an exception writes `CR2` at most (R139). -/
theorem stops_fetch {s : State} {r : Result} (h : fetch s = .stop r) : Stops s r := by
  simp only [fetch] at h
  split at h
  · cases h
  · cases h
    exact .exception _ (.refl s)
  · cases h
    cases hw : (fetchWindow s maxLength 0).2 with
    | none => exact stops_overlong s
    | some r =>
      obtain ⟨j, -, -, hj⟩ := fetchWindow_stop hw
      exact stops_fetchStop hj
  all_goals
    cases h
    exact .refused _

theorem stops_operandStop {s : State} {o : FormOp} {r : Result} (h : operandStop s o = some r) : Stops s r := by
  obtain ⟨e, -, rfl⟩ | ⟨e, a, rfl⟩ | ⟨pa, rfl⟩ | ⟨pa, rfl⟩ | rfl := operandStop_cases h
  · exact .exception e (.refl s)
  · exact .of_raiseTranslation s e a
  · exact .unmapped pa
  · exact .refused _
  · exact .refused _

/-- A form completes, or it stops; an exception sets flags of `MXCSR` and writes `CR2` at most (R139, R150). -/
theorem exec_next_or_stops (i : Instr) (s : State) : (∃ t, exec i s = .next t) ∨ Stops s (exec i s) := by
  by_cases hn : ∃ t, exec i s = .next t
  · exact .inl hn
  · right
    rw [exec_eq_execForm] at hn ⊢
    obtain hr | hr | hr | ⟨v, hv, hr⟩ := execForm_stop_cases rfl fun t ht => hn ⟨t, ht⟩
    · rw [hr]
      exact .exception _ (.refl s)
    · rw [hr]
      exact .exception _ (.refl s)
    · exact stops_operandStop hr
    · have hraised := raisedFlags_noZeroDivide s i.formOp
      rw [hr]
      refine .exception _ ?_
      obtain ⟨-, ⟨-, rfl⟩ | ⟨-, rfl⟩⟩ := fpRespond_faults hv
      · exact .of_leaveFlags s (BitVec.and_comm .. ▸ hraised.and preFlags) hraised
      · exact .of_leaveFlags s hraised hraised

/-- No debug trap follows an instruction that stops (R157). -/
theorem stops_debugTrap {s : State} {r : Result} (o : FormOp) (h : Stops s r) : Stops s (debugTrap s o r) := by
  cases h with
  | exception e h => exact .exception e h
  | unmapped pa => exact .unmapped pa
  | refused q => exact .refused q

/-! ## One step -/

/-- The instruction at the instruction pointer completes, with nothing to trap, or stops. -/
theorem stepInstr_cases (s : State) :
    (∃ i t, fetch s = .instr i ∧ exec i s = .next t ∧ stepInstr s = .next t) ∨ Stops s (stepInstr s) := by
  unfold stepInstr
  split
  · split
    next i hi =>
      obtain ⟨t, ht⟩ | hstop := exec_next_or_stops i s
      · rw [ht, debugTrap]
        split
        · exact .inl ⟨i, t, hi, ht, rfl⟩
        · exact .inr (.exception _ ((InstrEffect.of_exec_next ht).set_dr6 _))
      · exact .inr (stops_debugTrap i.formOp hstop)
    next r hr => exact .inr (stops_fetch hr)
  · exact .inr (.exception _ ((InstrEffect.refl s).set_dr6 _))

/-- What a step that answers a next state did: the fetched instruction completed, or an exception was taken from a state that
only an instruction's writes tell from the first. -/
theorem step_next_cases {s t : State} (h : step s = .next t) :
    (∃ i, fetch s = .instr i ∧ exec i s = .next t) ∨ ∃ e u, InstrEffect s u ∧ takeException e u = .next t := by
  obtain ⟨i, u, hi, hexec, hu⟩ | hstop := stepInstr_cases s
  · rw [step, hu] at h
    exact .inl ⟨i, hi, hexec.trans h⟩
  · obtain hnext | ⟨e, u, hfault, htake⟩ := deliver_next h
    · exact absurd hnext (hstop.ne_next t)
    · exact .inr ⟨e, u, (hfault ▸ hstop).instrEffect, htake⟩

/-! ## Taking an exception -/

/-- What taking an exception may write: memory, by the pushes, and what a handler's entry loads (R149). -/
def HandlerFrame (u t : State) : Prop :=
  t = { u with
    mem := t.mem, cs := t.cs, ss := { u.ss with selector := t.ss.selector }, rip := t.rip, ripPast := t.ripPast,
    rflags := t.rflags, gpr := t.gpr }

/-- Entering a handler: 64-bit mode is kept, since `VM` is cleared, `pc` is the gate's and memory stays canonical (R149). -/
structure HandlerEntered (u t : State) : Prop where
  frame : HandlerFrame u t
  mem : Memory.wf u.mem = true → Memory.wf t.mem = true
  is64 : t.is64 = true
  ripPast : t.ripPast = false

theorem handlerFrame_refl (u : State) : HandlerFrame u u := rfl

theorem flagVM_handlerFlags (g : Gate) (f : BitVec 64) : (handlerFlags g f).getLsbD 17 = false := by
  unfold handlerFlags
  split <;> simp

theorem enterHandler_frame (u : State) (g : Gate) (sp : Word64) : HandlerFrame u (u.enterHandler g sp) := by
  unfold HandlerFrame State.enterHandler
  dsimp only
  split <;> rfl

/-- 64-bit addressing asks for protected mode, no virtual-8086 mode and `MODE` 64 (R26, R142). -/
theorem is64_iff (s : State) : s.is64 = true ↔ s.cr0PE = true ∧ s.flagVM = false ∧ s.mode = .mode64 := by
  unfold State.is64 State.decodeMode
  split
  next hl =>
    have : s.cr0PE = true → s.flagVM = true := by simpa [State.legacyMode, imp_iff_not_or] using hl
    simp_all
  next hl =>
    obtain ⟨hpe, hvm⟩ : s.cr0PE = true ∧ s.flagVM = false := by simpa [State.legacyMode] using hl
    cases hm : s.mode <;> simp [hpe, hvm]

theorem is64_enterHandler {u : State} (h : u.is64 = true) (g : Gate) (sp : Word64) : (u.enterHandler g sp).is64 = true := by
  obtain ⟨hpe, -, hmode⟩ := (is64_iff u).mp h
  exact (is64_iff _).mpr ⟨hpe, flagVM_handlerFlags g u.rflags, hmode⟩

theorem handlerEntered_of_takeException {e : Exc} {u t : State} (h : takeException e u = .next t) : HandlerEntered u t := by
  obtain ⟨g, sp, v, h64, -, hpush, rfl⟩ := takeException_next h
  obtain ⟨hv, -, hwf⟩ := pushWords_cases hpush
  refine ⟨?_, hwf, is64_enterHandler ?_ g sp, rfl⟩
  · have hframe := enterHandler_frame v g sp
    generalize v.enterHandler g sp = t at hframe ⊢
    rw [HandlerFrame, hv] at hframe
    exact hframe
  · rw [hv]
    exact h64

/-- Over a step: what an instruction may write, then what taking an exception may. -/
theorem step_effect {s t : State} (h : step s = .next t) : ∃ u, InstrEffect s u ∧ HandlerFrame u t := by
  obtain ⟨i, -, hexec⟩ | ⟨e, u, heffect, htake⟩ := step_next_cases h
  · exact ⟨t, .of_exec_next hexec, handlerFrame_refl t⟩
  · exact ⟨u, heffect, (handlerEntered_of_takeException htake).frame⟩

/-! ## Control state -/

theorem mxcsr_or_flags_controls (m : BitVec 32) {f : FpFlags} (hf : NoZeroDivide f) :
    (m ||| f.setWidth 32) &&& 0xFFFFFFC4#32 = m &&& 0xFFFFFFC4#32 := by
  have hz : f.setWidth 32 &&& 0xFFFFFFC4#32 = 0 := by
    unfold NoZeroDivide at hf
    revert f
    decide
  rw [BitVec.and_comm, BitVec.and_or_distrib_left, BitVec.and_comm, BitVec.and_comm _ (f.setWidth 32), hz]
  exact BitVec.or_zero

theorem mxcsr_or_flags_sticky (m f : BitVec 32) : m &&& ~~~(m ||| f) = 0 := by
  ext j hj
  cases hm : m[j] <;> simp [hm]

/-- Settles O13: neither an instruction nor the taking of an exception writes control state, and only flags without `ZE` are
set in `MXCSR`. -/
theorem stepKeepsControlState : Obligations.StepKeepsControlState := by
  intro s t h
  obtain ⟨u, ⟨hinstr, ⟨f, hf, hmxcsr⟩, -⟩, hhandler⟩ := step_effect h
  have hcontrols : u.mxcsr &&& 0xFFFFFFC4#32 = s.mxcsr &&& 0xFFFFFFC4#32 := by rw [hmxcsr, mxcsr_or_flags_controls _ hf]
  have hsticky : s.mxcsr &&& ~~~u.mxcsr = 0 := by rw [hmxcsr, mxcsr_or_flags_sticky]
  rw [HandlerFrame, hinstr] at hhandler
  rw [hhandler]
  exact ⟨rfl, rfl, rfl, rfl, rfl, rfl, rfl, rfl, rfl, rfl, rfl, rfl, rfl, rfl, rfl, rfl, rfl, rfl, rfl, rfl, rfl, hcontrols,
    hsticky⟩

/-! ## Without gates -/

/-- A completed form leaves memory, general registers, `RFLAGS`, segments, `CR2` and `DR6` as they were (R104). -/
theorem exec_next_frame {i : Instr} {s t : State} (h : exec i s = .next t) :
    t = { s with zmm := t.zmm, mxcsr := t.mxcsr, rip := t.rip, ripPast := t.ripPast } := by
  obtain ⟨-, rfl⟩ := exec_next h
  unfold afterFlags
  split <;> rfl

/-- Settles O14: with no gate no exception is taken, so the step is a form completing. -/
theorem stepWithoutGatesWritesNoMemory : Obligations.StepWithoutGatesWritesNoMemory := by
  intro s t hgates h
  obtain ⟨i, hfetch, hexec⟩ | ⟨e, u, heffect, htake⟩ := step_next_cases h
  · have hframe := exec_next_frame hexec
    have hseg (g : Seg) : t.readSeg g = s.readSeg g := by
      rw [hframe]
      rfl
    refine ⟨fun a => ?_, ?_, ?_, hseg, ?_, ?_, i, hfetch, hexec⟩
    all_goals rw [hframe]
  · have hnone : u.gateFor e = none := by
      have hg : u.gates = [] := by rw [heffect.frame, hgates]
      rw [State.gateFor, hg]
      rfl
    rw [takeException_noGate hnone] at htake
    cases htake

/-! ## The invariant -/

theorem mxcsr_or_flags_high {m : BitVec 32} (h : m.extractLsb' 16 16 = 0#16) (f : FpFlags) :
    (m ||| f.setWidth 32).extractLsb' 16 16 = 0#16 := by
  have hf : (f.setWidth 32).extractLsb' 16 16 = 0#16 := by
    revert f
    decide
  rw [BitVec.extractLsb'_or, h, hf]
  rfl

/-- The parts of the invariant that only an instruction's writes could break. -/
theorem inv_of_effect {s u t : State} (hs : Inv s) (hu : InstrEffect s u) (ht : HandlerFrame u t)
    (hmem : Memory.wf t.mem = true) (hrip : t.is64 = false → t.rip.extractLsb' 32 32 = 0#32)
    (hpast : t.ripPast = true → t.is64 = true ∧ t.rip = 0) : Inv t := by
  obtain ⟨hframe, ⟨f, -, hf⟩, hupper⟩ := hu
  have hcfg : t.cfg = s.cfg := by rw [ht, hframe]
  have hk : t.k = s.k := by rw [ht, hframe]
  have hzmm : t.zmm = u.zmm := by rw [ht]
  have hmxcsr : t.mxcsr = s.mxcsr ||| f.setWidth 32 := by rw [ht, hf]
  refine ⟨hmem, ?_, fun hw r => ?_, fun hn r j hj => ?_, hrip, hpast⟩
  · rw [hmxcsr]
    exact mxcsr_or_flags_high hs.mxcsr f
  · simpa only [State.readK, hk] using hs.k (hcfg ▸ hw) r
  · have hread : t.readZmm r = u.readZmm r := by simp only [State.readZmm, hzmm]
    rw [hread, hupper (hcfg ▸ hn) r j hj]
    exact hs.zmm (hcfg ▸ hn) r j hj

/-- Each byte of the fetched window is in bounds (R123). -/
theorem codeInBounds_of_window {s : State} {n k j : Nat} (h : j < (fetchWindow s n k).1.length) :
    codeInBounds s (k + j) = true := by
  induction n generalizing k j with
  | zero => cases h
  | succ n ih =>
    unfold fetchWindow at h
    cases hstop : fetchStop s k with
    | some r => simp [hstop] at h
    | none =>
      simp only [hstop, List.length_cons] at h
      cases j with
      | zero =>
        by_contra hb
        rw [Nat.add_zero] at hb
        simp [fetchStop, hb] at hstop
      | succ j =>
        rw [← Nat.add_assoc, Nat.add_right_comm]
        exact ih (by omega)

theorem decode_of_fetch {s : State} {i : Instr} (h : fetch s = .instr i) :
    ∃ rest, decode s.decodeMode s.cfg.b1RegNon512 (fetchWindow s maxLength 0).1 = .instr i rest := by
  simp only [fetch] at h
  split at h
  next j rest hj =>
    cases h
    exact ⟨rest, hj⟩
  all_goals cases h

theorem formOp_len_pos (o : FormOp) : 0 < o.len := by
  unfold FormOp.len
  omega

/-- In 64-bit mode an instruction that is fetched ends at the top of the address space at the latest (R123). -/
theorem pc_add_len_le {s : State} {i : Instr} (h64 : s.is64 = true) (h : fetch s = .instr i) :
    s.pc + i.formOp.len ≤ 2 ^ 64 := by
  obtain ⟨rest, hdec⟩ := decode_of_fetch h
  have hlen := (decode_sound hdec).length
  have hpos := formOp_len_pos i.formOp
  have hlast := codeInBounds_of_window (show i.formOp.len - 1 < (fetchWindow s maxLength 0).1.length by omega)
  simp only [codeInBounds, h64, if_true, Bool.and_eq_true, decide_eq_true_eq] at hlast
  omega

/-- Outside 64-bit mode the sum is `EIP`, 32 bits wide (R22). -/
theorem nextPc_high {s : State} (h64 : s.is64 = false) (len : Nat) : (nextPc s len).extractLsb' 32 32 = 0#32 := by
  simp only [nextPc, h64, Bool.false_eq_true, if_false]
  ext j hj
  simp

/-- Where `pc` passes the top of the address space, `RIP` is 0 (R123 (b)). -/
theorem nextPc_of_nextPast {s : State} {i : Instr} (hfetch : fetch s = .instr i) (h : nextPast s i.formOp.len = true) :
    s.is64 = true ∧ nextPc s i.formOp.len = 0 := by
  simp only [nextPast, Bool.and_eq_true, decide_eq_true_eq] at h
  obtain ⟨h64, htop⟩ := h
  refine ⟨h64, ?_⟩
  have hle := pc_add_len_le h64 hfetch
  have hpos := formOp_len_pos i.formOp
  have hpast : s.ripPast = false := by
    by_contra hp
    rw [Bool.not_eq_false] at hp
    rw [State.pc, hp] at hle
    simp only [if_true] at hle
    omega
  rw [pc_of_not_past hpast] at hle htop
  apply BitVec.eq_of_toNat_eq
  have hsum : s.rip.toNat + i.formOp.len = 2 ^ 64 := by omega
  simp [nextPc, h64, hsum]

/-- Settles O12: a completed form advances `pc` as the invariant asks, an exception is taken in 64-bit mode alone, and neither
writes more than `InstrEffect` and `HandlerFrame` say. -/
theorem stepKeepsInvariant : Obligations.StepKeepsInvariant := by
  intro s t hs h
  obtain ⟨i, hfetch, hexec⟩ | ⟨e, u, heffect, htake⟩ := step_next_cases h
  · have hframe := exec_next_frame hexec
    have h64 : t.is64 = s.is64 := by
      rw [hframe]
      rfl
    obtain ⟨-, ht⟩ := exec_next hexec
    have hrip : t.rip = nextPc s i.formOp.len := ht ▸ rfl
    have hpast : t.ripPast = nextPast s i.formOp.len := ht ▸ rfl
    refine inv_of_effect hs (.of_exec_next hexec) (handlerFrame_refl t) ?_ ?_ ?_
    · rw [hframe]
      exact hs.mem
    · rw [h64, hrip]
      exact fun h64 => nextPc_high h64 _
    · rw [h64, hrip, hpast]
      exact nextPc_of_nextPast hfetch
  · obtain ⟨hframe, hmem, h64, hpast⟩ := handlerEntered_of_takeException htake
    have hu : u.mem = s.mem := by rw [heffect.frame]
    refine inv_of_effect hs heffect hframe (hmem (hu ▸ hs.mem)) (fun h => ?_) (fun h => ?_)
    · rw [h64] at h
      cases h
    · rw [hpast] at h
      cases h

/-! ## The state after reset -/

/-- Settles O11: the registers of the reset state are zero where the invariant asks for it. -/
theorem resetMeetsInvariant : Obligations.ResetMeetsInvariant where
  mem := reset_mem_wf
  mxcsr := rfl
  k _ r := by simp [State.readK, State.reset]
  zmm _ r j _ := by simp [State.readZmm, State.reset, laneOf]
  rip _ := rfl
  past h := by cases h

theorem readSeg_reset {g : Seg} (h : g ≠ .cs) : State.reset.readSeg g = resetSeg := by
  cases g with
  | cs => exact absurd rfl h
  | es | ss | ds | fs | gs => rfl

/-- In real-address mode every form is an undefined opcode (R142, R160). -/
theorem exec_of_legacyMode {s : State} (h : s.legacyMode = true) (i : Instr) : exec i s = .fault (.exception .ud s) := by
  have hdisabled : formEnabled s i.formOp = false := by simp [formEnabled, h]
  rw [exec_eq_execForm, execForm, hdisabled]
  rfl

/-- Settles O57: the fields of the reset state are the values of R32, and its mode is real-address mode. -/
theorem resetState : Obligations.ResetState := by
  have hzmm (r : VReg) : State.reset.readZmm r = Vector.replicate 8 0 := by simp [State.readZmm, State.reset]
  have hk (r : KReg) : State.reset.readK r = 0 := by simp [State.readK, State.reset]
  have hgpr (r : GReg) (_ : r ≠ 2#4) : State.reset.readGpr r = 0 := by simp [State.readGpr, State.reset]
  have hseg (g : Seg) (h : g ≠ .cs) : (State.reset.readSeg g).selector = 0 ∧ (State.reset.readSeg g).base = 0 ∧
      (State.reset.readSeg g).limit = 0xFFFF := by
    rw [readSeg_reset h]
    exact ⟨rfl, rfl, rfl⟩
  exact ⟨hzmm, hk, hgpr, rfl, rfl, rfl, by decide, rfl, rfl, rfl, hseg, rfl, rfl, rfl, by decide, by decide, by decide,
    exec_of_legacyMode (by decide)⟩

end Sys2Proof.Machine
end

section
/-! PROOFS. The opmask registers matter only as a writemask (O28). -/

namespace Sys2Proof.Machine

/-! ## Other opmask registers, the same writemask -/

/-- `s` with other opmask registers. -/
def State.withK (s : State) (k : Vector (BitVec 64) 8) : State := { s with k := k }

/-- A result, the state it holds being given other opmask registers. -/
def resultWithK (k : Vector (BitVec 64) 8) : Result → Result
  | .next t => .next (t.withK k)
  | .fault (.exception e u) => .fault (.exception e (u.withK k))
  | .fault (.unmapped pa) => .fault (.unmapped pa)
  | .fault (.deliveryFailed e u) => .fault (.deliveryFailed e (u.withK k))
  | .refused q => .refused q

section
variable (s : State) (k : Vector (BitVec 64) 8)

@[simp] theorem withK_cfg : (s.withK k).cfg = s.cfg := rfl
@[simp] theorem withK_is64 : (s.withK k).is64 = s.is64 := rfl
@[simp] theorem withK_translate : (s.withK k).translate = s.translate := rfl
@[simp] theorem withK_cpl : (s.withK k).cpl = s.cpl := rfl
@[simp] theorem withK_effectiveAddress : effectiveAddress (s.withK k) = effectiveAddress s := by
  funext o m b
  cases m <;> rfl
@[simp] theorem withK_linearByte : linearByte (s.withK k) = linearByte s := rfl
@[simp] theorem withK_segmentFault : segmentFault (s.withK k) = segmentFault s := rfl
@[simp] theorem withK_alignmentFault : alignmentFault (s.withK k) = alignmentFault s := rfl
@[simp] theorem withK_segmentAllows : segmentAllows (s.withK k) = segmentAllows s := rfl
@[simp] theorem withK_recordFault (e : Exc) (a : Word64) : (s.withK k).recordFault e a = (s.recordFault e a).withK k := by
  cases e <;> rfl
@[simp] theorem withK_laneResult : laneResult (s.withK k) = laneResult s := rfl

@[simp] theorem withK_firstTranslationFault (acc : Access) (las : List Word64) :
    firstTranslationFault (s.withK k) acc las = firstTranslationFault s acc las := by
  induction las with
  | nil => rfl
  | cons la las ih => simp only [firstTranslationFault, withK_translate, withK_cpl, ih]

@[simp] theorem withK_firstInRegion (acc : Access) (kind : RegionKind) (las : List Word64) :
    firstInRegion (s.withK k) acc kind las = firstInRegion s acc kind las := by
  induction las with
  | nil => rfl
  | cons la las ih => simp only [firstInRegion, withK_translate, withK_cpl, withK_cfg, ih]

theorem leaveFlags_withK (shown raised : FpFlags) :
    (s.withK k).leaveFlags shown raised = (s.leaveFlags shown raised).withK k := by
  unfold State.leaveFlags
  rw [withK_cfg]
  split <;> rfl

end

/-- A response to flags, the state it holds being given other opmask registers. -/
def responseWithK (k : Vector (BitVec 64) 8) : FpResponse → FpResponse
  | .completes t => .completes (t.withK k)
  | .faults t => .faults (t.withK k)

theorem fpRespond_withK (s : State) (k : Vector (BitVec 64) 8) (f : FpFlags) :
    fpRespond (s.withK k) f = responseWithK k (fpRespond s f) := by
  simp only [fpRespond, leaveFlags_withK]
  repeat' rw [apply_ite (responseWithK k)]
  rfl

/-! ## The operand read, the lanes and the write-back under the same active lanes -/

section
variable {s : State} {k : Vector (BitVec 64) 8} {o : FormOp}
  (h : ∀ j, j < vecLanes o.vl → activeLane (s.withK k) o j = activeLane s o j)
include h

theorem anyActive_withK : anyActive (s.withK k) o = anyActive s o := by
  unfold anyActive
  rw [Bool.eq_iff_iff]
  simp only [List.any_eq_true, List.mem_range]
  exact exists_congr fun j => and_congr_right fun hj => by rw [h j hj]

theorem neededBytes_withK (bcst : Bool) : neededBytes (s.withK k) o bcst = neededBytes s o bcst := by
  refine List.filter_congr fun off hoff => ?_
  unfold neededByte
  rw [anyActive_withK h, withK_cfg]
  cases bcst with
  | true => rfl
  | false =>
    have hoff : off < 8 * vecLanes o.vl := List.mem_range.mp hoff
    rw [h (off / 8) (by omega)]

theorem memOperandStop_withK (m : MemOperand) (bcst : Bool) :
    memOperandStop (s.withK k) o m bcst = (memOperandStop s o m bcst).map (resultWithK k) := by
  simp only [memOperandStop, neededAddresses, operandAddresses, neededBytes_withK h, withK_is64, withK_effectiveAddress,
    withK_segmentFault, withK_alignmentFault, withK_segmentAllows, withK_linearByte, withK_firstTranslationFault,
    withK_firstInRegion, raiseTranslation, withK_recordFault]
  repeat' split
  all_goals rfl

theorem operandStop_withK : operandStop (s.withK k) o = (operandStop s o).map (resultWithK k) := by
  unfold operandStop
  split
  · rfl
  · exact memOperandStop_withK h _ _

theorem unionFlags_withK {n : Nat} (hn : n ≤ vecLanes o.vl) : unionFlags (s.withK k) o n = unionFlags s o n := by
  induction n with
  | zero => rfl
  | succ n ih => simp only [unionFlags, ih (by omega), h n (by omega), withK_laneResult]

theorem newLane_withK : newLane (s.withK k) o = newLane s o := by
  funext j
  unfold newLane
  rw [withK_laneResult]
  by_cases hj : j < vecLanes o.vl
  · simp only [if_pos hj, h j hj]
    rfl
  · simp only [if_neg hj]
    rfl

theorem writeBack_withK (u : State) : writeBack (s.withK k) o (u.withK k) = (writeBack s o u).withK k := by
  unfold writeBack
  rw [newLane_withK h]
  rfl

theorem computeForm_withK : computeForm o (s.withK k) = resultWithK k (computeForm o s) := by
  have hsup : suppressAll (s.withK k) o = suppressAll s o := rfl
  simp only [computeForm, hsup, unionFlags_withK h le_rfl, fpRespond_withK]
  split
  · exact congrArg Host.Outcome.next (writeBack_withK h s)
  · cases fpRespond s (unionFlags s o (vecLanes o.vl)) with
    | completes u => exact congrArg Host.Outcome.next (writeBack_withK h u)
    | faults u => rfl

theorem execForm_withK : execForm o (s.withK k) = resultWithK k (execForm o s) := by
  have henabled : formEnabled (s.withK k) o = formEnabled s o := rfl
  have hts : (s.withK k).cr0TS = s.cr0TS := rfl
  simp only [execForm, henabled, hts, operandStop_withK h, computeForm_withK h]
  split
  · rfl
  · split
    · rfl
    · cases operandStop s o <;> rfl

end

/-- Where the writemask a form names agrees in its low bits, the active lanes agree (R99). -/
theorem activeLane_withK {s : State} {k : Vector (BitVec 64) 8} {o : FormOp}
    (h : ∀ m, o.mask = some m → m.aaa ≠ 0#3 →
      ∀ j, j < vecLanes o.vl → ((s.withK k).readK m.aaa).getLsbD j = (s.readK m.aaa).getLsbD j)
    {j : Nat} (hj : j < vecLanes o.vl) : activeLane (s.withK k) o j = activeLane s o j := by
  unfold activeLane
  cases hmask : o.mask with
  | none => rfl
  | some m =>
    by_cases haaa : m.aaa = 0#3
    · simp [haaa]
    · simp only [h m hmask haaa j hj]

/-- Settles O28: a form under other opmask registers, its writemask's low bits the same, gives its result with those
registers. -/
theorem onlyLowMaskBitsMatter : Obligations.OnlyLowMaskBitsMatter := by
  intro i s s' hs' hbits
  have hexec : exec i s' = resultWithK s'.k (exec i s) := by
    rw [hs'] at hbits
    rw [exec_eq_execForm, exec_eq_execForm, hs']
    exact execForm_withK fun j hj => activeLane_withK hbits hj
  refine ⟨fun t ht => ?_, fun e u hu => ?_⟩
  · rw [hexec, ht]
    rfl
  · rw [hexec, hu]
    rfl

end Sys2Proof.Machine
end

section
/-! PROOFS. A memory operand of which no lane is active (O39). -/

namespace Sys2Proof.Machine

/-! ## The operand read -/

/-- The operand's search for a device finds none exactly when no byte of the operand lies in one (R41). -/
theorem firstInRegion_device_eq_none {s : State} {o : FormOp} {m : MemOperand} {bcst : Bool} :
    firstInRegion s .read .device (operandAddresses s o m bcst) = none ↔
      ∀ off, off < operandSize o bcst → ¬ InDevice s o m bcst off := by
  rw [firstInRegion_eq_none, operandAddresses, List.forall_mem_map]
  simp [InDevice]

/-- Where no byte is needed, 64-bit mode raises no fault of R143 and asks for no byte in a hole: only a device stops the
operand read (R41, R49). -/
theorem memOperandStop_of_none_needed {s : State} {o : FormOp} {m : MemOperand} {bcst : Bool} (h64 : s.is64 = true)
    (hneed : neededBytes s o bcst = []) :
    memOperandStop s o m bcst =
      (firstInRegion s .read .device (operandAddresses s o m bcst)).map fun pa => .refused (.deviceOperand pa) := by
  have haddr : neededAddresses s o m bcst = [] := by simp [neededAddresses, hneed]
  have hseg (g : Seg) (ea : Word64) : segmentFault s g ea [] = none := rfl
  have halign (la : Word64) : alignmentFault s bcst la [] = false := by simp [alignmentFault]
  have htrans : firstTranslationFault s .read [] = none := rfl
  have hhole : firstInRegion s .read .unmapped [] = none := rfl
  simp only [memOperandStop, hneed, haddr, hseg, halign, htrans, hhole, h64]
  cases firstInRegion s .read .device (operandAddresses s o m bcst) <;> rfl

theorem operandStop_of_memOperand {s : State} {o : FormOp} {m : MemOperand} {bcst : Bool}
    (hm : memOperand? o = some (m, bcst)) : operandStop s o = memOperandStop s o m bcst := by
  rw [operandStop, hm]

/-- An enabled form whose operand read stops ends as the read does (R104). -/
theorem execForm_of_operandStop {s : State} {o : FormOp} {r : Result} (he : formEnabled s o = true)
    (hts : s.cr0TS = false) (hstop : operandStop s o = some r) : execForm o s = r := by
  simp [execForm, he, hts, hstop]

theorem vecLanes_le_eight (vl : VecLen) : vecLanes vl ≤ 8 := by cases vl <;> decide

/-! ## No lane active -/

section
variable {s : State} {o : FormOp} (h : ∀ j, j < vecLanes o.vl → activeLane s o j = false)
include h

/-- Fault suppression (R49): an operand of which no lane is active needs no byte. -/
theorem neededBytes_of_inactive (hfs : s.cfg.faultSuppression = true) (bcst : Bool) : neededBytes s o bcst = [] := by
  refine List.filter_eq_nil_iff.mpr fun off hoff => ?_
  rw [List.mem_range] at hoff
  cases bcst with
  | true =>
    have hany : anyActive s o = false := by simpa [anyActive] using h
    simp [neededByte, hfs, hany]
  | false =>
    have hoff : off < 8 * vecLanes o.vl := hoff
    simp [neededByte, hfs, h (off / 8) (by omega)]

theorem unionFlags_of_inactive {n : Nat} (hn : n ≤ vecLanes o.vl) : unionFlags s o n = 0 := by
  induction n with
  | zero => rfl
  | succ n ih => simp [unionFlags, ih (by omega), h n (by omega)]

theorem raisedFlags_of_inactive : raisedFlags s o = 0 := unionFlags_of_inactive h le_rfl

theorem fpQuiet_of_inactive : fpQuiet s o = true := by
  simp [fpQuiet, raisedFlags_of_inactive h, State.unmasked]

theorem afterFlags_mxcsr_of_inactive : (afterFlags s o).mxcsr = s.mxcsr := by
  unfold afterFlags
  split
  · rfl
  · simp [raisedFlags_of_inactive h]

/-- Masking alone decides the lanes of the destination below `VL` (R99). -/
theorem newLane_of_inactive {j : Nat} (hj : j < vecLanes o.vl) :
    newLane s o j = if zeroing o then 0 else laneOf (s.readZmm o.dest) j := by
  simp [newLane, hj, h j hj]

end

/-- Settles O39: no byte being needed, only a device can stop the operand read; if none does the form completes, with no
flag to raise and every lane decided by masking. -/
theorem fullyMaskedOperandNotRead : Obligations.FullyMaskedOperandNotRead := by
  intro i s m bcst he hts h64 hfs hm hinactive
  have hstop := operandStop_of_memOperand (s := s) hm
  rw [memOperandStop_of_none_needed h64 (neededBytes_of_inactive hinactive hfs bcst)] at hstop
  rw [exec_eq_execForm]
  refine ⟨fun hnodev => ?_, fun off hoff hdev => ?_⟩
  · rw [firstInRegion_device_eq_none.mpr hnodev, Option.map_none] at hstop
    have hcomplete : Completes s i.formOp := ⟨he, hts, hstop, fpQuiet_of_inactive hinactive⟩
    refine ⟨_, execForm_next_iff.mpr ⟨hcomplete, rfl⟩, ?_, ⟨rfl, rfl⟩, fun j hj => ?_⟩
    · rw [writeBack_mxcsr, afterFlags_mxcsr_of_inactive hinactive]
    · rw [readZmm_writeBack_self, laneOf_ofLanes _ _ (hj.trans_le (vecLanes_le_eight _)), newLane_of_inactive hinactive hj]
  · cases hfound : firstInRegion s .read .device (operandAddresses s i.formOp m bcst) with
    | none => exact absurd hdev (firstInRegion_device_eq_none.mp hfound off hoff)
    | some pa =>
      rw [hfound, Option.map_some] at hstop
      exact ⟨pa, execForm_of_operandStop he hts hstop, (firstInRegion_some hfound).1⟩

end Sys2Proof.Machine
end

section
/-! PROOFS. The statements about encodings: the round trip (O1), the spec's words (O4), `C5H` (O8), the assembly of an EVEX
register form (O7), the reserved EVEX fields (O5), the length of what is decoded (O2) and forbidden prefixes (O6). -/

namespace Sys2Proof

/-- Settles O1: each of the fifteen instructions is read back from its encoding. -/
theorem decodeEncodeRoundTrip : Obligations.DecodeEncodeRoundTrip := fun _ _ _ rest h => decode_encode h rest

/-- Settles O4: each word is what the encoder writes for the instruction it stands for, so the round trip reads it back. -/
theorem specWordsDecode : Obligations.SpecWordsDecode :=
  ⟨decode_encode (i := .vfmsubadd132pdXmmVex [] 1 2 (.reg 3)) rfl [],
    decode_encode (i := .vfmsubadd231pdYmmVex [] 9 10 (.mem (.sib 11 (some 12) 3 (.d8 0x40)))) rfl [],
    decode_encode (i := .vfmsubadd213pdZmmEvex [] { aaa := 1, z := true } 1 2 (.reg 3)) rfl [],
    decode_encode (i := .vfmsubadd231pdZmmEvex [] { aaa := 3, z := false } 1 2 (.bcst (.base 3 .none))) rfl [],
    decode_encode (i := .vfmsubadd132pdZmmEvex [] { aaa := 7, z := false } 25 30 (.reg 17)) rfl [],
    decode_encode (i := .vfmsubadd231pdZmmEvex [] { aaa := 0, z := false } 1 2 (.regB 3 3)) rfl []⟩

/-! ## Behind `C5H` -/

theorem decode_prefixed_vex2 (m : DecodeMode) (p : B1RegNon512) (pfx : List LegacyPrefix) (bs : List Byte) :
    decode m p (pfx.map LegacyPrefix.byte ++ 0xC5#8 :: bs) = decodeVex2 m bs := by
  rw [decode, splitPrefixes_map_byte (by cases m <;> decide)]
  rfl

theorem decodeVex2_ne_instr (m : DecodeMode) (bs : List Byte) (i : Instr) (rest : List Byte) :
    decodeVex2 m bs ≠ .instr i rest := by
  cases m with
  | mode64 | mode32 => exact nofun
  | legacy =>
    cases bs with
    | nil => exact nofun
    | cons b bs =>
      simp only [decodeVex2]
      split <;> exact nofun

/-- Settles O8: after the allowed prefixes the decoder meets `C5H`, and what it answers there depends on the mode alone but
in the legacy modes, where the byte after `C5H` decides. -/
theorem twoByteVexNeverDecodes : Obligations.TwoByteVexNeverDecodes := by
  intro m p pre bs
  rw [decode_prefixed_vex2]
  refine ⟨decodeVex2_ne_instr m bs, fun hm => ?_, ?_⟩
  · cases m with
    | mode64 | mode32 => rfl
    | legacy => exact absurd rfl hm
  · rintro b rest rfl rfl
    rfl

/-! ## What follows the prefixes -/

theorem legacyPrefix?_eq_some {b : Byte} {x : LegacyPrefix} (h : legacyPrefix? b = some x) : b = x.byte := by
  unfold legacyPrefix? at h
  split_ifs at h <;> cases h <;> assumption

theorem forbiddenPrefix_byte (m : DecodeMode) (x : LegacyPrefix) : forbiddenPrefix m x.byte = false := by
  cases x with
  | seg g => cases m <;> cases g <;> rfl
  | addressSize => cases m <;> rfl

/-- The decoder splits off the longest run of prefixes (R67 (1), R68). -/
theorem splitPrefixes_eq (m : DecodeMode) (bs : List Byte) :
    splitPrefixes m bs = ((bs.takeWhile (isPrefix m)).filterMap legacyPrefix?,
      (bs.takeWhile (isPrefix m)).any (forbiddenPrefix m), bs.dropWhile (isPrefix m)) := by
  induction bs with
  | nil => rfl
  | cons b bs ih =>
    cases hx : legacyPrefix? b with
    | some x =>
      obtain rfl := legacyPrefix?_eq_some hx
      simp [splitPrefixes, isPrefix, hx, ih, forbiddenPrefix_byte]
    | none =>
      cases hf : forbiddenPrefix m b with
      | true => simp [splitPrefixes, isPrefix, hx, hf, ih]
      | false => simp [splitPrefixes, isPrefix, hx, hf]

/-- The decoder behind the prefixes: `x` are the allowed ones, and `bad` says that a forbidden one was among them. -/
def decodeOpened (m : DecodeMode) (p : B1RegNon512) (x : List LegacyPrefix) (bad : Bool) : List Byte → Decoded
  | [] => .truncated
  | b :: bs =>
    if b = 0xC4#8 then decodeVex m x bad bs
    else if b = 0x62#8 then decodeEvex m p x bad bs
    else if b = 0xC5#8 then decodeVex2 m bs
    else .notInSpec

theorem decode_eq (m : DecodeMode) (p : B1RegNon512) (bs : List Byte) :
    decode m p bs = decodeOpened m p ((bs.takeWhile (isPrefix m)).filterMap legacyPrefix?)
      ((bs.takeWhile (isPrefix m)).any (forbiddenPrefix m)) (bs.dropWhile (isPrefix m)) := by
  rw [decode, splitPrefixes_eq]
  cases bs.dropWhile (isPrefix m) <;> rfl

theorem decode_append_prefixes {m : DecodeMode} {pre : List Byte} {b : Byte} (hpre : ∀ c ∈ pre, isPrefix m c = true)
    (hb : isPrefix m b = false) (p : B1RegNon512) (bs : List Byte) :
    decode m p (pre ++ b :: bs) =
      decodeOpened m p (pre.filterMap legacyPrefix?) (pre.any (forbiddenPrefix m)) (b :: bs) := by
  have hstop : (b :: bs).takeWhile (isPrefix m) = [] ∧ (b :: bs).dropWhile (isPrefix m) = b :: bs := by simp [hb]
  rw [decode_eq, List.takeWhile_append_of_pos hpre, List.dropWhile_append_of_pos hpre, hstop.1, hstop.2, List.append_nil]

theorem decode_of_all_prefixes {m : DecodeMode} {bs : List Byte} (h : ∀ c ∈ bs, isPrefix m c = true) (p : B1RegNon512) :
    decode m p bs = .truncated := by
  rw [decode_eq, List.dropWhile_eq_nil_iff.mpr h]
  rfl

theorem decode_vex (m : DecodeMode) (p : B1RegNon512) (bs : List Byte) :
    decode m p (0xC4#8 :: bs) = decodeVex m [] false bs := decode_prefixed_vex m p [] bs

theorem decode_evex (m : DecodeMode) (p : B1RegNon512) (bs : List Byte) :
    decode m p (0x62#8 :: bs) = decodeEvex m p [] false bs := decode_prefixed_evex m p [] bs

/-! ## Readers that look at no byte they leave -/

/-- What `P` reads depends on the bytes it takes alone, and it leaves the others as they stand. -/
def PrefixReader {α : Type} (P : List Byte → Option (α × List Byte)) : Prop :=
  ∀ bs a rest, P bs = some (a, rest) → ∃ used, bs = used ++ rest ∧ ∀ e, P (used ++ e) = some (a, e)

namespace PrefixReader

variable {α β : Type} {P : List Byte → Option (α × List Byte)}

theorem pure (a : α) : PrefixReader fun bs => some (a, bs) := by
  rintro bs _ _ ⟨⟩
  exact ⟨[], rfl, fun _ => rfl⟩

theorem map (hP : PrefixReader P) (g : α → β) : PrefixReader fun bs => (P bs).map fun r => (g r.1, r.2) := by
  intro bs a rest h
  obtain ⟨⟨a, rest⟩, hread, ⟨⟩⟩ := Option.map_eq_some_iff.mp h
  obtain ⟨used, hbs, hused⟩ := hP bs a rest hread
  exact ⟨used, hbs, fun e => by simp only [hused, Option.map_some]⟩

theorem append (hP : PrefixReader P) {bs rest : List Byte} {a : α} (h : P bs = some (a, rest)) (e : List Byte) :
    P (bs ++ e) = some (a, rest ++ e) := by
  obtain ⟨used, rfl, hused⟩ := hP bs a rest h
  rw [List.append_assoc, hused]

/-- Where `P` takes all of the bytes, it takes no fewer. -/
theorem eq_none_of_append (hP : PrefixReader P) {bs e : List Byte} {a : α} (h : P (bs ++ e) = some (a, [])) (he : e ≠ []) :
    P bs = none := by
  cases hbs : P bs with
  | none => rfl
  | some r =>
    have hrest : r.2 ++ e = [] := congrArg Prod.snd (Option.some.inj ((hP.append hbs e).symm.trans h))
    exact absurd (List.append_eq_nil_iff.mp hrest).2 he

end PrefixReader

theorem prefixReader_disp32? : PrefixReader disp32? := by
  intro bs d rest h
  unfold disp32? at h
  split at h
  · cases h
    exact ⟨[_, _, _, _], rfl, fun _ => rfl⟩
  · cases h

theorem prefixReader_disp? (md : BitVec 2) : PrefixReader (disp? md) := by
  unfold disp?
  split_ifs
  · exact .pure _
  · rintro (_ | ⟨b, bs⟩) d rest h
    · cases h
    · cases h
      exact ⟨[b], rfl, fun _ => rfl⟩
  · exact prefixReader_disp32?.map _

theorem prefixReader_sibOperand? (x b : BitVec 1) (md : BitVec 2) (sib : Byte) : PrefixReader (sibOperand? x b md sib) := by
  unfold sibOperand?
  dsimp only
  split_ifs
  · exact prefixReader_disp32?.map _
  · exact prefixReader_disp32?.map _
  · exact (prefixReader_disp? md).map _
  · exact (prefixReader_disp? md).map _

theorem prefixReader_rmField? (x b : BitVec 1) (modrm : Byte) : PrefixReader (rmField? x b modrm) := by
  unfold rmField?
  dsimp only
  split_ifs
  · exact .pure _
  · rintro (_ | ⟨sib, bs⟩) a rest h
    · cases h
    · obtain ⟨used, rfl, hused⟩ := (prefixReader_sibOperand? x b _ sib).map RmField.mem bs a rest h
      exact ⟨sib :: used, rfl, hused⟩
  · exact prefixReader_disp32?.map fun d => RmField.mem (.ripRel d)
  · exact (prefixReader_disp? _).map fun d => RmField.mem (.base _ d)


/-! ## The third operand -/

theorem disp32?_of_length {bs : List Byte} (h : 4 ≤ bs.length) : ∃ r, disp32? bs = some r := by
  match bs, h with
  | b0 :: b1 :: b2 :: b3 :: bs, _ => exact ⟨_, rfl⟩

theorem disp?_of_length {bs : List Byte} (h : 4 ≤ bs.length) (md : BitVec 2) : ∃ r, disp? md bs = some r := by
  obtain ⟨r, hr⟩ := disp32?_of_length h
  unfold disp?
  split_ifs
  · exact ⟨_, rfl⟩
  · cases bs with
    | nil => cases h
    | cons b bs => exact ⟨_, rfl⟩
  · exact ⟨_, by rw [hr]; rfl⟩

/-- Five bytes are enough for a SIB byte and a displacement (R59, R60). -/
theorem rmField?_of_length {bs : List Byte} (h : 5 ≤ bs.length) (x b : BitVec 1) (modrm : Byte) :
    ∃ r, rmField? x b modrm bs = some r := by
  obtain ⟨d32, hd32⟩ := disp32?_of_length (bs := bs) (by omega)
  obtain ⟨d, hd⟩ := disp?_of_length (bs := bs) (by omega) (modrm.extractLsb' 6 2)
  unfold rmField?
  dsimp only
  split_ifs
  · exact ⟨_, rfl⟩
  · cases bs with
    | nil => cases h
    | cons sib bs =>
      have h4 : 4 ≤ bs.length := Nat.le_of_succ_le_succ h
      obtain ⟨e32, he32⟩ := disp32?_of_length h4
      obtain ⟨e, he⟩ := disp?_of_length h4 (modrm.extractLsb' 6 2)
      simp only [sibOperand?, he32, he]
      split_ifs <;> exact ⟨_, rfl⟩
  · exact ⟨_, by rw [hd32]; rfl⟩
  · exact ⟨_, by rw [hd]; rfl⟩

theorem rmField?_of_mod11 {modrm : Byte} (h : modrm.extractLsb' 6 2 = 0b11#2) (x b : BitVec 1) (bs : List Byte) :
    rmField? x b modrm bs = some (.reg (modrm.extractLsb' 0 3), bs) := if_pos h

theorem mem_of_rmField? {x b : BitVec 1} {modrm : Byte} {bs rest : List Byte} {rm : RmField}
    (hmod : modrm.extractLsb' 6 2 ≠ 0b11#2) (h : rmField? x b modrm bs = some (rm, rest)) : ∃ o, rm = .mem o := by
  simp only [rmField?, if_neg hmod] at h
  split_ifs at h
  · cases bs with
    | nil => cases h
    | cons sib bs =>
      obtain ⟨⟨o, r⟩, -, ⟨⟩⟩ := Option.map_eq_some_iff.mp h
      exact ⟨o, rfl⟩
  all_goals
    obtain ⟨r, -, ⟨⟩⟩ := Option.map_eq_some_iff.mp h
    exact ⟨_, rfl⟩

theorem addressing16?_of_mod11 {modrm : Byte} (h : modrm.extractLsb' 6 2 = 0b11#2) (m : DecodeMode)
    (x : List LegacyPrefix) : addressing16? m x modrm = false := by simp [addressing16?, h]

theorem addressing16?_nil (m : DecodeMode) (modrm : Byte) : addressing16? m [] modrm = false := by
  simp [addressing16?]

/-! ## What the decoder answers for the operands of a VEX form -/

/-- The third operand, by ModRM, of a VEX form with the extension bit `b`. -/
def RmField.vexSrc3 (b : BitVec 1) : RmField → VexSrc3
  | .reg r => .reg (b ++ r)
  | .mem o => .mem o

/-- What ModRM and the bytes behind it name, in a VEX form with the payload `b1` (R58 to R60). -/
def vexRmField? (m : DecodeMode) (b1 modrm : Byte) (bs : List Byte) : Option (RmField × List Byte) :=
  rmField? (~~~b1.extractLsb' 6 1) (extB m (~~~b1.extractLsb' 5 1)) modrm bs

/-- The instruction of a VEX form with the payload `b1`, `b2` (R54, R62, R69). -/
def vexRow (m : DecodeMode) (x : List LegacyPrefix) (f : Form) (b1 b2 modrm : Byte) (rm : RmField) : Instr :=
  vexInstr f (b2.extractLsb' 2 1) x (~~~b1.extractLsb' 7 1 ++ modrm.extractLsb' 3 3)
    (if m = .mode32 then ~~~b2.extractLsb' 3 4 &&& 7#4 else ~~~b2.extractLsb' 3 4)
    (rm.vexSrc3 (extB m (~~~b1.extractLsb' 5 1)))

section
variable {m : DecodeMode} {x : List LegacyPrefix} {modrm : Byte}

theorem decodeVexOperands_of_addressing16 (h : addressing16? m x modrm = true) (bad : Bool) (f : Form) (b1 b2 : Byte)
    (bs : List Byte) :
    decodeVexOperands m x bad f b1 b2 (modrm :: bs) = if bad then .undefined else .addressing16 := by
  simp only [decodeVexOperands, h, if_true]

theorem decodeVexOperands_of_none (h16 : addressing16? m x modrm = false) {b1 : Byte} {bs : List Byte}
    (h : vexRmField? m b1 modrm bs = none) (bad : Bool) (f : Form) (b2 : Byte) :
    decodeVexOperands m x bad f b1 b2 (modrm :: bs) = .truncated := by
  unfold vexRmField? at h
  simp only [decodeVexOperands, h16, h, Bool.false_eq_true, if_false]

theorem decodeVexOperands_of_some (h16 : addressing16? m x modrm = false) {b1 : Byte} {bs rest : List Byte} {rm : RmField}
    (h : vexRmField? m b1 modrm bs = some (rm, rest)) (bad : Bool) (f : Form) (b2 : Byte) :
    decodeVexOperands m x bad f b1 b2 (modrm :: bs) =
      if bad then .undefined else .instr (vexRow m x f b1 b2 modrm rm) rest := by
  unfold vexRmField? at h
  simp only [decodeVexOperands, h16, h, Bool.false_eq_true, if_false]
  cases rm <;> rfl

end

/-- With the fixed fields of a VEX form the decoder reads its operands (R53, R54); outside 64-bit mode the two top bits of the
payload are set (R67). -/
theorem decodeVex_of_fixed {m : DecodeMode} {b1 b2 : Byte} (htop : m ≠ .mode64 → b1.extractLsb' 6 2 = 0b11#2)
    (hfixed : b1.extractLsb' 0 5 = 0b00010#5 ∧ b2.extractLsb' 7 1 = 1#1 ∧ b2.extractLsb' 0 2 = 0b01#2)
    (x : List LegacyPrefix) (bad : Bool) (f : Form) (bs : List Byte) :
    decodeVex m x bad (b1 :: b2 :: f.opcode :: bs) = decodeVexOperands m x (bad || m == .legacy) f b1 b2 bs := by
  have hVex : ¬ (m ≠ .mode64 ∧ b1.extractLsb' 6 2 ≠ 0b11#2) := fun h => h.2 (htop h.1)
  simp only [decodeVex, if_neg hVex, form?_opcode, if_pos hfixed]

/-! ## What the decoder answers for the operands of an EVEX form -/

/-- The writemask and zeroing fields (R63). -/
def evexMask (p2 : Byte) : MaskSpec := { aaa := p2.extractLsb' 0 3, z := p2.extractLsb' 7 1 = 1#1 }

/-- The vector length and third operand of an EVEX form, with `xb` the extension bits `X` and `B` (R62, R64); `none` where
`L'L` of `11` is reserved. -/
def RmField.evexSrc3? (p : B1RegNon512) (ll : BitVec 2) (eb : Bool) (xb : BitVec 2) : RmField → Option (VecLen × EvexSrc3)
  | .reg r => if eb then some (regBLen p ll, .regB (xb ++ r) ll) else (vecLen? ll).map fun vl => (vl, .reg (xb ++ r))
  | .mem o => (vecLen? ll).map fun vl => (vl, if eb then .bcst o else .mem o)

def evexRmField? (m : DecodeMode) (p0 modrm : Byte) (bs : List Byte) : Option (RmField × List Byte) :=
  rmField? (~~~p0.extractLsb' 6 1) (extB m (~~~p0.extractLsb' 5 1)) modrm bs

/-- The answer for an EVEX form whose third operand is `rm`, its fields being good (R57, R62 to R64, R69). -/
def evexAnswer (m : DecodeMode) (p : B1RegNon512) (x : List LegacyPrefix) (f : Form) (p0 p1 p2 modrm : Byte) (rm : RmField)
    (rest : List Byte) : Decoded :=
  match rm.evexSrc3? p (p2.extractLsb' 5 2) (p2.extractLsb' 4 1 = 1#1)
    (~~~p0.extractLsb' 6 1 ++ extB m (~~~p0.extractLsb' 5 1)) with
  | none => .undefined
  | some (vl, r) =>
    if mode32Refused m p0 p1 p2 then .mode32Register
    else .instr (evexInstr f vl x (evexMask p2) (~~~p0.extractLsb' 4 1 ++ ~~~p0.extractLsb' 7 1 ++ modrm.extractLsb' 3 3)
      (~~~p2.extractLsb' 3 1 ++ ~~~p1.extractLsb' 3 4) r) rest

section
variable {m : DecodeMode} {x : List LegacyPrefix} {modrm : Byte}

theorem decodeEvexOperands_of_addressing16 (h : addressing16? m x modrm = true) (p : B1RegNon512) (bad : Bool) (f : Form)
    (p0 p1 p2 : Byte) (bs : List Byte) :
    decodeEvexOperands m p x bad f p0 p1 p2 (modrm :: bs) =
      if bad ∨ (evexMask p2).wf = false ∨ vecLen? (p2.extractLsb' 5 2) = none then .undefined
      else if mode32Refused m p0 p1 p2 then .mode32Register else .addressing16 := by
  simp only [decodeEvexOperands, h, if_true]
  rfl

theorem decodeEvexOperands_of_none (h16 : addressing16? m x modrm = false) {p0 : Byte} {bs : List Byte}
    (h : evexRmField? m p0 modrm bs = none) (p : B1RegNon512) (bad : Bool) (f : Form) (p1 p2 : Byte) :
    decodeEvexOperands m p x bad f p0 p1 p2 (modrm :: bs) = .truncated := by
  unfold evexRmField? at h
  simp only [decodeEvexOperands, h16, h, Bool.false_eq_true, if_false]

theorem decodeEvexOperands_of_some (h16 : addressing16? m x modrm = false) {p0 : Byte} {bs rest : List Byte} {rm : RmField}
    (h : evexRmField? m p0 modrm bs = some (rm, rest)) (p : B1RegNon512) (bad : Bool) (f : Form) (p1 p2 : Byte) :
    decodeEvexOperands m p x bad f p0 p1 p2 (modrm :: bs) =
      if bad ∨ (evexMask p2).wf = false then .undefined else evexAnswer m p x f p0 p1 p2 modrm rm rest := by
  unfold evexRmField? at h
  simp only [decodeEvexOperands, h16, h, Bool.false_eq_true, if_false, evexMask, evexAnswer, RmField.evexSrc3?]
  cases rm with
  | reg r => by_cases heb : p2.extractLsb' 4 1 = 1#1 <;> cases hvl : vecLen? (p2.extractLsb' 5 2) <;> simp [heb]
  | mem o => cases hvl : vecLen? (p2.extractLsb' 5 2) <;> simp

end

/-- With the fixed fields of an EVEX form the decoder reads its operands (R56, R57); the reserved fields of R71 (a) and (b)
make it undefined. -/
theorem decodeEvex_of_fixed {m : DecodeMode} {p0 p1 : Byte} (htop : m ≠ .mode64 → p0.extractLsb' 6 2 = 0b11#2)
    (hfixed : p0.extractLsb' 0 2 = 0b10#2 ∧ p1.extractLsb' 7 1 = 1#1 ∧ p1.extractLsb' 0 2 = 0b01#2)
    (p : B1RegNon512) (x : List LegacyPrefix) (bad : Bool) (f : Form) (p2 : Byte) (bs : List Byte) :
    decodeEvex m p x bad (p0 :: p1 :: p2 :: f.opcode :: bs) =
      decodeEvexOperands m p x (bad || m == .legacy || p0.extractLsb' 2 2 != 0b00#2 || p1.extractLsb' 2 1 != 1#1) f
        p0 p1 p2 bs := by
  have hEvex : ¬ (m ≠ .mode64 ∧ p0.extractLsb' 6 2 ≠ 0b11#2) := fun h => h.2 (htop h.1)
  simp only [decodeEvex, if_neg hEvex, form?_opcode, if_pos hfixed]

/-- Reserved fields make an EVEX encoding with the opcode of a form undefined, whatever its fixed fields hold (R66, R71). -/
theorem decodeEvex_of_reserved {m : DecodeMode} {p0 p1 : Byte} {bad : Bool}
    (htop : m ≠ .mode64 → p0.extractLsb' 6 2 = 0b11#2)
    (hbad : (bad || m == .legacy || p0.extractLsb' 2 2 != 0b00#2 || p1.extractLsb' 2 1 != 1#1) = true) {bs : List Byte}
    (hlen : 5 ≤ bs.length) (p : B1RegNon512) (x : List LegacyPrefix) (f : Form) (p2 modrm : Byte) :
    decodeEvex m p x bad (p0 :: p1 :: p2 :: f.opcode :: modrm :: bs) = .undefined := by
  by_cases hfixed : p0.extractLsb' 0 2 = 0b10#2 ∧ p1.extractLsb' 7 1 = 1#1 ∧ p1.extractLsb' 0 2 = 0b01#2
  · rw [decodeEvex_of_fixed htop hfixed, hbad]
    cases h16 : addressing16? m x modrm with
    | true => simp [decodeEvexOperands_of_addressing16 h16]
    | false =>
      obtain ⟨⟨rm, rest⟩, hrm⟩ := rmField?_of_length hlen (~~~p0.extractLsb' 6 1) (extB m (~~~p0.extractLsb' 5 1)) modrm
      simp [decodeEvexOperands_of_some h16 hrm]
  · have hEvex : ¬ (m ≠ .mode64 ∧ p0.extractLsb' 6 2 ≠ 0b11#2) := fun h => h.2 (htop h.1)
    simp only [decodeEvex, if_neg hEvex, form?_opcode, if_neg hfixed, hbad, if_true]

theorem evexAnswer_of_none {m : DecodeMode} {p : B1RegNon512} {p0 p2 : Byte} {rm : RmField}
    (h : rm.evexSrc3? p (p2.extractLsb' 5 2) (p2.extractLsb' 4 1 = 1#1)
      (~~~p0.extractLsb' 6 1 ++ extB m (~~~p0.extractLsb' 5 1)) = none)
    (x : List LegacyPrefix) (f : Form) (p1 modrm : Byte) (rest : List Byte) :
    evexAnswer m p x f p0 p1 p2 modrm rm rest = .undefined := by
  simp only [evexAnswer, h]

/-! ## An EVEX form with a register third operand -/

theorem bit_eq_one_iff (b : Byte) (j : Nat) : b.extractLsb' j 1 = 1#1 ↔ b.getLsbD j = true := by
  constructor
  · intro h
    simpa using congrArg (BitVec.getLsbD · 0) h
  · intro h
    ext i hi
    obtain rfl : i = 0 := by omega
    simpa using h

theorem evexMask_eq (p2 : Byte) : evexMask p2 = { aaa := p2.extractLsb' 0 3, z := p2.getLsbD 7 } := by
  simp [evexMask, bit_eq_one_iff]

theorem evexMask_wf_eq_false {p2 : Byte} :
    (evexMask p2).wf = false ↔ p2.extractLsb' 7 1 = 1#1 ∧ p2.extractLsb' 0 3 = 0#3 := by
  simp [evexMask, MaskSpec.wf]

/-- How an EVEX form with a register third operand is assembled (R57, R62 to R64). -/
theorem decode_evexRegister {m : DecodeMode} {p : B1RegNon512} {p0 p1 p2 modrm : Byte} {vl : VecLen} {r : EvexSrc3}
    (hm : m = .mode64 ∨ m = .mode32 ∧ p0.extractLsb' 6 2 = 0b11#2)
    (hfixed : p0.extractLsb' 0 2 = 0b10#2 ∧ p1.extractLsb' 7 1 = 1#1 ∧ p1.extractLsb' 0 2 = 0b01#2)
    (hzero : p0.extractLsb' 2 2 = 0b00#2) (hone : p1.extractLsb' 2 1 = 1#1)
    (hmask : ¬ (p2.extractLsb' 7 1 = 1#1 ∧ p2.extractLsb' 0 3 = 0#3)) (hmod : modrm.extractLsb' 6 2 = 0b11#2)
    (hlow : mode32Refused m p0 p1 p2 = false)
    (hsrc : (RmField.reg (modrm.extractLsb' 0 3)).evexSrc3? p (p2.extractLsb' 5 2) (p2.extractLsb' 4 1 = 1#1)
      (~~~p0.extractLsb' 6 1 ++ extB m (~~~p0.extractLsb' 5 1)) = some (vl, r)) (f : Form) (rest : List Byte) :
    decode m p (0x62#8 :: p0 :: p1 :: p2 :: f.opcode :: modrm :: rest) =
      .instr (evexInstr f vl [] (evexMask p2) (~~~p0.extractLsb' 4 1 ++ ~~~p0.extractLsb' 7 1 ++ modrm.extractLsb' 3 3)
        (~~~p2.extractLsb' 3 1 ++ ~~~p1.extractLsb' 3 4) r) rest := by
  obtain ⟨htop, hlegacy⟩ : (m ≠ .mode64 → p0.extractLsb' 6 2 = 0b11#2) ∧ (m == .legacy) = false := by
    obtain rfl | ⟨rfl, h⟩ := hm
    · exact ⟨absurd rfl, rfl⟩
    · exact ⟨fun _ => h, rfl⟩
  have hgood : ¬ (false = true ∨ (evexMask p2).wf = false) := by simpa [evexMask_wf_eq_false] using hmask
  rw [decode_evex, decodeEvex_of_fixed htop hfixed, hlegacy, hzero, hone]
  simp only [bne_self_eq_false, Bool.or_self]
  rw [decodeEvexOperands_of_some (addressing16?_of_mod11 hmod m []) (rmField?_of_mod11 hmod _ _ rest), if_neg hgood]
  simp only [evexAnswer, hsrc, hlow, Bool.false_eq_true, if_false]

theorem evexP0_fixed_fields {p0 : Byte} (h : p0.extractLsb' 0 4 = 0b0010#4) :
    p0.extractLsb' 0 2 = 0b10#2 ∧ p0.extractLsb' 2 2 = 0b00#2 := by
  revert p0; decide

theorem evexP1_fixed_fields {p1 : Byte} (h : p1.extractLsb' 0 3 = 0b101#3) :
    p1.extractLsb' 0 2 = 0b01#2 ∧ p1.extractLsb' 2 1 = 1#1 := by
  revert p1; decide

/-- Settles O7: the fields of a register form, where `b` decides whether `L'L` is a rounding control or a length. -/
theorem evexRegisterFormFields : Obligations.EvexRegisterFormFields := by
  intro f p0 p1 p2 modrm rest h0 hW h1 hmod hmask d v r k bs
  obtain ⟨hmm, hzero⟩ := evexP0_fixed_fields h0
  obtain ⟨hpp, hone⟩ := evexP1_fixed_fields h1
  have hread {vl : VecLen} {q : EvexSrc3}
      (hsrc : (RmField.reg (modrm.extractLsb' 0 3)).evexSrc3? .as512 (p2.extractLsb' 5 2) (p2.extractLsb' 4 1 = 1#1)
        (~~~p0.extractLsb' 6 1 ++ ~~~p0.extractLsb' 5 1) = some (vl, q)) :
      decode .mode64 .as512 bs = .instr (evexInstr f vl [] k d v q) rest := by
    rw [decode_evexRegister (.inl rfl) ⟨hmm, hW, hpp⟩ hzero hone hmask hmod rfl hsrc, evexMask_eq]
  simp only [← Bool.not_eq_true, ← bit_eq_one_iff]
  refine ⟨fun hb => ?_, fun hb hll => ?_, fun hb hll => ?_, fun hb hll => ?_⟩
  · exact hread (by simp [RmField.evexSrc3?, hb, regBLen, r])
  all_goals exact hread (by simp [RmField.evexSrc3?, hb, hll, vecLen?, r])

/-! ## The reserved fields of R71 -/

/-- `L'L` of `11` is reserved but on a register form with `b = 1` (R56, R64). -/
theorem evexSrc3?_reserved {rm : RmField} {eb : Bool} (h : ∀ r, rm = .reg r → eb = false) (p : B1RegNon512)
    (xb : BitVec 2) : rm.evexSrc3? p 0b11#2 eb xb = none := by
  cases rm with
  | reg r =>
    rw [h r rfl]
    rfl
  | mem o => rfl

/-- An EVEX form with zeroing and no writemask, or with a reserved vector length, is undefined (R71 (c), (d)). -/
theorem decodeEvexOperands_of_reserved {m : DecodeMode} {p0 p2 modrm : Byte}
    (h : (evexMask p2).wf = false ∨
      p2.extractLsb' 5 2 = 0b11#2 ∧ ¬ (modrm.extractLsb' 6 2 = 0b11#2 ∧ p2.extractLsb' 4 1 = 1#1))
    {bs : List Byte} (hlen : 5 ≤ bs.length) (p : B1RegNon512) (x : List LegacyPrefix) (bad : Bool) (f : Form) (p1 : Byte) :
    decodeEvexOperands m p x bad f p0 p1 p2 (modrm :: bs) = .undefined := by
  cases h16 : addressing16? m x modrm with
  | true =>
    rw [decodeEvexOperands_of_addressing16 h16]
    obtain hmask | ⟨hll, -⟩ := h
    · simp [hmask]
    · simp [hll, vecLen?]
  | false =>
    obtain ⟨⟨rm, rest⟩, hrm⟩ := rmField?_of_length hlen (~~~p0.extractLsb' 6 1) (extB m (~~~p0.extractLsb' 5 1)) modrm
    rw [decodeEvexOperands_of_some h16 hrm]
    obtain hmask | ⟨hll, hnot⟩ := h
    · simp [hmask]
    · have hreg : ∀ r, rm = .reg r → decide (p2.extractLsb' 4 1 = 1#1) = false := by
        rintro r rfl
        refine decide_eq_false fun hb => hnot ⟨?_, hb⟩
        by_contra hmod
        obtain ⟨o, ho⟩ := mem_of_rmField? hmod hrm
        cases ho
      rw [evexAnswer_of_none (by rw [hll]; exact evexSrc3?_reserved hreg p _), ite_self]

/-- A VEX encoding with the fixed fields of a form is an instruction (R71). -/
theorem decode_vex_of_fixed {m : DecodeMode} {b1 b2 : Byte} (hm : m = .mode64 ∨ m = .mode32 ∧ b1.extractLsb' 6 2 = 0b11#2)
    (hfixed : b1.extractLsb' 0 5 = 0b00010#5 ∧ b2.extractLsb' 7 1 = 1#1 ∧ b2.extractLsb' 0 2 = 0b01#2) {bs : List Byte}
    (hlen : 5 ≤ bs.length) (p : B1RegNon512) (f : Form) (modrm : Byte) :
    ∃ i rest, decode m p (0xC4#8 :: b1 :: b2 :: f.opcode :: modrm :: bs) = .instr i rest := by
  obtain ⟨htop, hlegacy⟩ : (m ≠ .mode64 → b1.extractLsb' 6 2 = 0b11#2) ∧ (m == .legacy) = false := by
    obtain rfl | ⟨rfl, h⟩ := hm
    · exact ⟨absurd rfl, rfl⟩
    · exact ⟨fun _ => h, rfl⟩
  obtain ⟨⟨rm, rest⟩, hrm⟩ := rmField?_of_length hlen (~~~b1.extractLsb' 6 1) (extB m (~~~b1.extractLsb' 5 1)) modrm
  rw [decode_vex, decodeVex_of_fixed htop hfixed, hlegacy, decodeVexOperands_of_some (addressing16?_nil m modrm) hrm]
  exact ⟨_, rest, rfl⟩

/-- On a register form with `b = 1`, `L'L` of `11` is the rounding control of the 512-bit form (R64). -/
theorem evexSrc3?_roundControl {p2 : Byte} (hll : p2.extractLsb' 5 2 = 0b11#2) (hb : p2.extractLsb' 4 1 = 1#1)
    (p : B1RegNon512) (r : BitVec 3) (xb : BitVec 2) :
    (RmField.reg r).evexSrc3? p (p2.extractLsb' 5 2) (p2.extractLsb' 4 1 = 1#1) xb =
      some (.v512, .regB (xb ++ r) 0b11#2) := by
  rw [hll, decide_eq_true hb]
  cases p <;> rfl

/-- Settles O5: a reserved field is found at the opcode byte or with the operands; the same length bits on a register form
with `b = 1` are a rounding control; VEX has no reserved field; and the fetch raises #UD for what is undefined. -/
theorem reservedEvexFieldsUndefined : Obligations.ReservedEvexFieldsUndefined := by
  refine ⟨?_, ?_, ?_⟩
  · intro m p f p0 p1 p2 modrm tail hlen hm bs fixed mod11 b ll maskBad
    have htop : m ≠ .mode64 → p0.extractLsb' 6 2 = 0b11#2 := fun h => (hm.resolve_left h).2
    refine ⟨fun h => ?_, fun h => ?_, fun hfixed hmask => ?_, fun hfixed hll hnot => ?_, ?_⟩
    · exact (decode_evex m p _).trans (decodeEvex_of_reserved htop (by simp [h]) hlen p [] f p2 modrm)
    · exact (decode_evex m p _).trans (decodeEvex_of_reserved htop (by simp [h]) hlen p [] f p2 modrm)
    · rw [decode_evex, decodeEvex_of_fixed htop hfixed]
      exact decodeEvexOperands_of_reserved (.inl (evexMask_wf_eq_false.mpr hmask)) hlen p [] _ f p1
    · rw [decode_evex, decodeEvex_of_fixed htop hfixed]
      exact decodeEvexOperands_of_reserved (.inr ⟨hll, hnot⟩) hlen p [] _ f p1
    · intro hfixed hzero hone hmask hmod hb hll h32
      have hlow : mode32Refused m p0 p1 p2 = false := by simpa [mode32Refused, and_assoc] using h32
      exact ⟨_, _, _, _, decode_evexRegister hm hfixed hzero hone hmask hmod hlow
        (evexSrc3?_roundControl hll hb p _ _) f tail⟩
  · exact fun m p f b1 b2 modrm tail hlen hm hmap hW hpp => decode_vex_of_fixed hm ⟨hmap, hW, hpp⟩ hlen p f modrm
  · intro s h
    simp only [Machine.fetch, h]

/-! ## The length of what is decoded -/

/-- The instruction `i` was read from the front of `bs`, behind `n` bytes of its own; `rest` was left. -/
def Instr.Takes (i : Instr) (n : Nat) (bs rest : List Byte) : Prop :=
  ∃ used, bs = used ++ rest ∧ i.formOp.len = n + used.length

theorem Instr.Takes.append {i : Instr} {n k : Nat} {bs rest front : List Byte} (h : i.Takes n bs rest)
    (hn : n = k + front.length) : i.Takes k (front ++ bs) rest := by
  obtain ⟨used, rfl, hlen⟩ := h
  exact ⟨front ++ used, (List.append_assoc ..).symm, by rw [hlen, hn, List.length_append, Nat.add_assoc]⟩

/-- The bytes after ModRM (R59, R60). -/
def RmField.size : RmField → Nat
  | .reg _ => 0
  | .mem o => o.size

theorem rmField?_takes {x b : BitVec 1} {modrm : Byte} {bs rest : List Byte} {rm : RmField}
    (h : rmField? x b modrm bs = some (rm, rest)) : ∃ used, bs = used ++ rest ∧ used.length = rm.size := by
  obtain ⟨used, rfl, -⟩ := prefixReader_rmField? x b modrm bs rm rest h
  obtain ⟨n, hlen, hread⟩ := rmField?_sound h
  obtain rfl : used.length = n := by simpa using hlen
  refine ⟨used, rfl, ?_⟩
  cases rm with
  | reg r => exact hread
  | mem o => exact hread.2.length

theorem vexSrc3_size (b : BitVec 1) (rm : RmField) : (rm.vexSrc3 b).size = rm.size := by cases rm <;> rfl

theorem evexSrc3?_size {rm : RmField} {p : B1RegNon512} {ll : BitVec 2} {eb : Bool} {xb : BitVec 2} {vl : VecLen}
    {r : EvexSrc3} (h : rm.evexSrc3? p ll eb xb = some (vl, r)) : r.size = rm.size := by
  cases rm with
  | reg q =>
    cases eb with
    | true =>
      cases h
      rfl
    | false =>
      obtain ⟨vl, -, ⟨⟩⟩ := Option.map_eq_some_iff.mp h
      rfl
  | mem o =>
    obtain ⟨vl, -, ⟨⟩⟩ := Option.map_eq_some_iff.mp h
    cases eb <;> rfl

theorem decodeVexOperands_takes {m : DecodeMode} {x : List LegacyPrefix} {bad : Bool} {f : Form} {b1 b2 : Byte}
    {bs rest : List Byte} {i : Instr} (h : decodeVexOperands m x bad f b1 b2 bs = .instr i rest) :
    bad = false ∧ i.Takes (x.length + 4) bs rest := by
  cases bs with
  | nil => cases h
  | cons modrm bs =>
    cases h16 : addressing16? m x modrm with
    | true =>
      rw [decodeVexOperands_of_addressing16 h16] at h
      split at h <;> cases h
    | false =>
      cases hrm : vexRmField? m b1 modrm bs with
      | none =>
        rw [decodeVexOperands_of_none h16 hrm] at h
        cases h
      | some r =>
        rw [decodeVexOperands_of_some h16 hrm] at h
        split at h
        · cases h
        next hbad =>
        cases h
        obtain ⟨used, rfl, hsize⟩ := rmField?_takes hrm
        refine ⟨by simpa using hbad, modrm :: used, rfl, ?_⟩
        rw [vexRow, len_vexInstr, vexSrc3_size, ← hsize, List.length_cons]
        omega

theorem decodeEvexOperands_takes {m : DecodeMode} {p : B1RegNon512} {x : List LegacyPrefix} {bad : Bool} {f : Form}
    {p0 p1 p2 : Byte} {bs rest : List Byte} {i : Instr} (h : decodeEvexOperands m p x bad f p0 p1 p2 bs = .instr i rest) :
    bad = false ∧ i.Takes (x.length + 5) bs rest := by
  cases bs with
  | nil => cases h
  | cons modrm bs =>
    cases h16 : addressing16? m x modrm with
    | true =>
      rw [decodeEvexOperands_of_addressing16 h16] at h
      split_ifs at h
    | false =>
      cases hrm : evexRmField? m p0 modrm bs with
      | none =>
        rw [decodeEvexOperands_of_none h16 hrm] at h
        cases h
      | some r =>
        rw [decodeEvexOperands_of_some h16 hrm, evexAnswer] at h
        split at h
        · cases h
        next hbad =>
        split at h
        · cases h
        next hsrc =>
        split at h
        · cases h
        cases h
        obtain ⟨used, rfl, hsize⟩ := rmField?_takes hrm
        refine ⟨by simpa using (not_or.mp hbad).1, modrm :: used, rfl, ?_⟩
        rw [len_evexInstr, evexSrc3?_size hsrc, ← hsize, List.length_cons]
        omega

theorem decodeVex_takes {m : DecodeMode} {x : List LegacyPrefix} {bad : Bool} {bs rest : List Byte} {i : Instr}
    (h : decodeVex m x bad bs = .instr i rest) : bad = false ∧ i.Takes (x.length + 1) bs rest := by
  unfold decodeVex at h
  split at h
  · cases h
  next b1 bs1 =>
  split at h
  · cases h
  split at h
  · next b2 op bs3 =>
    simp only at h
    split at h
    · split at h
      · obtain ⟨hbad, htakes⟩ := decodeVexOperands_takes h
        exact ⟨(Bool.or_eq_false_iff.mp hbad).1, htakes.append (front := [b1, b2, op]) rfl⟩
      · split at h <;> cases h
    · split at h <;> cases h
  · cases h

theorem decodeEvex_takes {m : DecodeMode} {p : B1RegNon512} {x : List LegacyPrefix} {bad : Bool} {bs rest : List Byte}
    {i : Instr} (h : decodeEvex m p x bad bs = .instr i rest) : bad = false ∧ i.Takes (x.length + 1) bs rest := by
  unfold decodeEvex at h
  split at h
  · cases h
  next p0 bs1 =>
  split at h
  · cases h
  split at h
  · next p1 p2 op bs4 =>
    simp only at h
    split at h
    · split at h
      · obtain ⟨hbad, htakes⟩ := decodeEvexOperands_takes h
        simp only [Bool.or_eq_false_iff, and_assoc] at hbad
        exact ⟨hbad.1, htakes.append (front := [p0, p1, p2, op]) rfl⟩
      · split at h <;> cases h
    · split at h <;> cases h
  · cases h

theorem decodeOpened_takes {m : DecodeMode} {p : B1RegNon512} {x : List LegacyPrefix} {bad : Bool} {bs rest : List Byte}
    {i : Instr} (h : decodeOpened m p x bad bs = .instr i rest) : bad = false ∧ i.Takes x.length bs rest := by
  cases bs with
  | nil => cases h
  | cons b bs =>
    simp only [decodeOpened] at h
    split_ifs at h
    · obtain ⟨hbad, htakes⟩ := decodeVex_takes h
      exact ⟨hbad, htakes.append (front := [b]) rfl⟩
    · obtain ⟨hbad, htakes⟩ := decodeEvex_takes h
      exact ⟨hbad, htakes.append (front := [b]) rfl⟩
    · exact absurd h (decodeVex2_ne_instr m bs i rest)

/-- Where none of the prefixes is forbidden, the instruction carries each (R51). -/
theorem length_filterMap_legacyPrefix? {m : DecodeMode} {pre : List Byte} (hpre : ∀ b ∈ pre, isPrefix m b = true)
    (hgood : pre.any (forbiddenPrefix m) = false) : (pre.filterMap legacyPrefix?).length = pre.length := by
  rw [List.filterMap_length_eq_length]
  intro b hb
  simpa [isPrefix, List.any_eq_false.mp hgood b hb] using hpre b hb

/-- Settles O2: the prefixes and the bytes read behind them are the instruction's. -/
theorem decodeConsumesLength : Obligations.DecodeConsumesLength := by
  intro m p bs i rest h
  rw [decode_eq] at h
  obtain ⟨hgood, htakes⟩ := decodeOpened_takes h
  rw [length_filterMap_legacyPrefix? (fun b => List.mem_takeWhile_imp) hgood, ← Nat.zero_add (List.length _)] at htakes
  obtain ⟨used, hbs, hlen⟩ := htakes.append (front := bs.takeWhile (isPrefix m)) rfl
  exact ⟨used, List.takeWhile_append_dropWhile.symm.trans hbs, by omega⟩

/-! ## Encodings that the decoder reads whole -/

/-- The bytes from `C4H` or `62H` on of a form whose operands the decoder reads in mode `m`, whatever their registers:
`modrm` is its ModRM byte and `rest` the bytes after the form. -/
inductive WholeForm (m : DecodeMode) (modrm : Byte) (rest : List Byte) : List Byte → Prop
  | vex {b1 b2 : Byte} {f : Form} {tail : List Byte} {rm : RmField} (top : m ≠ .mode64 → b1.extractLsb' 6 2 = 0b11#2)
      (fixed : b1.extractLsb' 0 5 = 0b00010#5 ∧ b2.extractLsb' 7 1 = 1#1 ∧ b2.extractLsb' 0 2 = 0b01#2)
      (read : vexRmField? m b1 modrm tail = some (rm, rest)) :
      WholeForm m modrm rest (0xC4#8 :: b1 :: b2 :: f.opcode :: modrm :: tail)
  | evex {p0 p1 p2 : Byte} {f : Form} {tail : List Byte} {rm : RmField}
      (top : m ≠ .mode64 → p0.extractLsb' 6 2 = 0b11#2)
      (fixed : p0.extractLsb' 0 2 = 0b10#2 ∧ p1.extractLsb' 7 1 = 1#1 ∧ p1.extractLsb' 0 2 = 0b01#2)
      (read : evexRmField? m p0 modrm tail = some (rm, rest)) :
      WholeForm m modrm rest (0x62#8 :: p0 :: p1 :: p2 :: f.opcode :: modrm :: tail)

theorem payload_top_of_zero {r x : BitVec 1} (hr : r = 0#1) (hx : x = 0#1) : ~~~r ++ ~~~x = 0b11#2 := by
  subst hr hx
  rfl

theorem wholeForm_encodeVex {m m' : DecodeMode} {x : List LegacyPrefix} {d v : VexReg} {r : VexSrc3}
    (hm : m ≠ .mode64 → m' = .mode32) (h : VexFits m' x d v r) (f : Form) (l : BitVec 1) :
    ∃ modrm, addressing16? m' x modrm = false ∧ (∀ q, r = .reg q → modrm.extractLsb' 6 2 = 0b11#2) ∧
      ∀ rest, WholeForm m modrm rest (encodeVex f l d v r ++ rest) := by
  obtain ⟨modrm, tl, henc, -, h16, hdec⟩ := rmField_encode_decodes h.rm (d.extractLsb' 0 3)
  obtain ⟨htop, -, hX, hB, hmap⟩ := vexByte1_fields (d.extractLsb' 3 1) r.extX r.extB
  obtain ⟨hW, -, -, hpp⟩ := vexByte2_fields v l
  refine ⟨modrm, h16, ?_, fun rest => ?_⟩
  · rintro q rfl
    obtain ⟨rfl, -⟩ := List.cons.inj henc
    exact (byte233_fields _ _ _).1
  · rw [encodeVex_eq, henc]
    refine .vex (fun hne => ?_) ⟨hmap, hW, hpp⟩ (rm := r.rm) ?_
    · rw [htop]
      exact payload_top_of_zero (h.dest (hm hne)) (h.extX (hm hne))
    · rw [vexRmField?, hX, hB, BitVec.not_not, BitVec.not_not, extB_of_bits fun hm32 => h.extB (hm (by simp [hm32]))]
      exact hdec rest

theorem wholeForm_encodeEvex {m m' : DecodeMode} {p : B1RegNon512} {vl : VecLen} {x : List LegacyPrefix} {k : MaskSpec}
    {d v : VReg} {r : EvexSrc3} (hm : m ≠ .mode64 → m' = .mode32) (h : EvexFits m' p vl x k d v r) (f : Form) :
    ∃ modrm, addressing16? m' x modrm = false ∧ (∀ q, r.rm = .reg q → modrm.extractLsb' 6 2 = 0b11#2) ∧
      ∀ rest, WholeForm m modrm rest (encodeEvex f vl k d v r ++ rest) := by
  obtain ⟨modrm, tl, henc, -, h16, hdec⟩ := rmField_encode_decodes h.rm (d.extractLsb' 0 3)
  obtain ⟨htop, -, hX, hB, -, -, hmm⟩ := evexP0_fields (d.extractLsb' 3 1) r.extX r.extB (d.extractLsb' 4 1)
  obtain ⟨hW, -, -, -, hpp⟩ := evexP1_fields (v.extractLsb' 0 4)
  refine ⟨modrm, h16, ?_, fun rest => ?_⟩
  · intro q hq
    rw [hq] at henc
    obtain ⟨rfl, -⟩ := List.cons.inj henc
    exact (byte233_fields _ _ _).1
  · rw [encodeEvex_eq, henc]
    refine .evex (fun hne => ?_) ⟨hmm, hW, hpp⟩ (rm := r.rm) ?_
    · rw [htop]
      exact payload_top_of_zero (vreg_bit3_of_low (h.dest (hm hne))) (h.extX (hm hne))
    · rw [evexRmField?, hX, hB, BitVec.not_not, BitVec.not_not, extB_of_bits fun hm32 => h.extB (hm (by simp [hm32]))]
      exact hdec rest

theorem size_memOperand_le (o : MemOperand) : o.size ≤ 5 := by
  have hdisp : ∀ d : Disp, d.size ≤ 4 := fun d => by cases d <;> simp [Disp.size]
  cases o with
  | base b d => exact (hdisp d).trans (by decide)
  | sib b i sc d => exact Nat.add_le_add_left (hdisp d) 1
  | sibNoBase i sc d => exact le_rfl
  | ripRel d => exact Nat.le_succ 4

/-- The decoder reads whole the encoding of a well-formed instruction; its prefixes aside it is no longer than the longest form.
In the legacy modes the encodings are those of `Mode32` (R26, R52). -/
theorem wholeForm_encode {m m' : DecodeMode} {p : B1RegNon512} {i : Instr} (hm : m ≠ .mode64 → m' = .mode32)
    (hwf : i.wf m' p = true) :
    ∃ x modrm bs, encode i = x.map LegacyPrefix.byte ++ bs ∧ bs.length ≤ longestForm ∧
      addressing16? m' x modrm = false ∧ (Machine.memOperand? i.formOp = none → modrm.extractLsb' 6 2 = 0b11#2) ∧
      ∀ rest, WholeForm m modrm rest (bs ++ rest) := by
  obtain ⟨f, l, x, d, v, r, rfl⟩ | ⟨f, vl, x, k, d, v, r, rfl⟩ := i.vex_or_evex
  · have hfits := vexFits_of_wfVex (wf_vexInstr m' p f l x d v r ▸ hwf)
    obtain ⟨modrm, h16, hreg, hwhole⟩ := wholeForm_encodeVex hm hfits f l
    refine ⟨x, modrm, _, encode_vexInstr f l x d v r, ?_, h16, fun hnone => ?_, hwhole⟩
    · rw [Laws.EncodedLength.vex_length, longestForm]
      cases r with
      | reg q => simp [VexSrc3.toSrc3, Src3.size]
      | mem o => exact Nat.add_le_add_left ((size_memOperand_le o).trans (Nat.le_succ 5)) 5
    · rw [formOp_vexInstr] at hnone
      cases r with
      | reg q => exact hreg q rfl
      | mem o => cases hnone
  · have hfits := evexFits_of_wfEvex (wf_evexInstr m' p f vl x k d v r ▸ hwf)
    obtain ⟨modrm, h16, hreg, hwhole⟩ := wholeForm_encodeEvex hm hfits f
    refine ⟨x, modrm, _, encode_evexInstr f vl x k d v r, ?_, h16, fun hnone => ?_, hwhole⟩
    · rw [Laws.EncodedLength.evex_length, longestForm]
      cases r with
      | reg q | regB q rc => simp [EvexSrc3.toSrc3, Src3.size]
      | mem o | bcst o => exact Nat.add_le_add_left (size_memOperand_le o) 6
    · rw [formOp_evexInstr] at hnone
      cases r with
      | reg q | regB q rc => exact hreg _ rfl
      | mem o | bcst o => cases hnone

theorem isPrefix_byte (m : DecodeMode) (x : LegacyPrefix) : isPrefix m x.byte = true := by
  simp [isPrefix, legacyPrefix?_byte]

theorem isPrefix_append_map_byte {m : DecodeMode} {pre : List Byte} (hpre : ∀ b ∈ pre, isPrefix m b = true)
    (x : List LegacyPrefix) : ∀ b ∈ pre ++ x.map LegacyPrefix.byte, isPrefix m b = true := by
  intro b hb
  obtain hb | hb := List.mem_append.mp hb
  · exact hpre b hb
  · obtain ⟨y, -, rfl⟩ := List.mem_map.mp hb
    exact isPrefix_byte m y

section
variable {m : DecodeMode} {modrm : Byte} {bs rest : List Byte}

theorem WholeForm.opening (h : WholeForm m modrm rest bs) : ∃ b tail, bs = b :: tail ∧ isPrefix m b = false := by
  cases h with
  | vex => exact ⟨_, _, rfl, by cases m <;> decide⟩
  | evex => exact ⟨_, _, rfl, by cases m <;> decide⟩

/-- Behind prefixes the decoder comes to the form. -/
theorem WholeForm.decode_prefixed (h : WholeForm m modrm rest bs) {pre : List Byte} (hpre : ∀ b ∈ pre, isPrefix m b = true)
    (p : B1RegNon512) :
    decode m p (pre ++ bs) = decodeOpened m p (pre.filterMap legacyPrefix?) (pre.any (forbiddenPrefix m)) bs := by
  obtain ⟨b, tail, rfl, hb⟩ := h.opening
  exact decode_append_prefixes hpre hb p tail

/-- Where one of the prefixes is forbidden, a form is undefined (R68). -/
theorem WholeForm.undefined_of_forbidden (h : WholeForm m modrm rest bs) (p : B1RegNon512) (x : List LegacyPrefix) :
    decodeOpened m p x true bs = .undefined := by
  cases h16 : addressing16? m x modrm with
  | true =>
    cases h with
    | vex top fixed read => exact (decodeVex_of_fixed top fixed x true _ _).trans (decodeVexOperands_of_addressing16 h16 ..)
    | evex top fixed read =>
      refine (decodeEvex_of_fixed top fixed p x true _ _ _).trans ?_
      simp [decodeEvexOperands_of_addressing16 h16]
  | false =>
    cases h with
    | vex top fixed read => exact (decodeVex_of_fixed top fixed x true _ _).trans (decodeVexOperands_of_some h16 read ..)
    | evex top fixed read =>
      refine (decodeEvex_of_fixed top fixed p x true _ _ _).trans ?_
      simp [decodeEvexOperands_of_some h16 read]

end

theorem ne_legacy_of_wf {m : DecodeMode} {p : B1RegNon512} {i : Instr} (h : i.wf m p = true) : m ≠ .legacy := by
  obtain ⟨f, l, x, d, v, r, rfl⟩ | ⟨f, vl, x, k, d, v, r, rfl⟩ := i.vex_or_evex
  · exact (vexFits_of_wfVex (wf_vexInstr m p f l x d v r ▸ h)).mode
  · exact (evexFits_of_wfEvex (wf_evexInstr m p f vl x k d v r ▸ h)).mode

theorem forbiddenPrefix_rex {b : Byte} (h : 0x40#8 ≤ b ∧ b ≤ 0x4F#8) : forbiddenPrefix .mode64 b = true := by
  revert b; decide

theorem forbiddenPrefix_of_mem {m : DecodeMode} {b : Byte}
    (h : b ∈ [0xF0#8, 0x66#8, 0xF2#8, 0xF3#8] ∨ m = .mode64 ∧ 0x40#8 ≤ b ∧ b ≤ 0x4F#8) : forbiddenPrefix m b = true := by
  obtain h | ⟨rfl, hrex⟩ := h
  · simp only [List.mem_cons, List.not_mem_nil, or_false] at h
    obtain rfl | rfl | rfl | rfl := h <;> rfl
  · exact forbiddenPrefix_rex hrex

theorem isPrefix_of_mem {m : DecodeMode} {b : Byte}
    (h : b ∈ [0x26#8, 0x2E#8, 0x36#8, 0x3E#8, 0x64#8, 0x65#8, 0x67#8, 0xF0#8, 0x66#8, 0xF2#8, 0xF3#8] ∨
      m = .mode64 ∧ 0x40#8 ≤ b ∧ b ≤ 0x4F#8) : isPrefix m b = true := by
  obtain h | ⟨rfl, hrex⟩ := h
  · revert b
    cases m <;> decide
  · simp [isPrefix, forbiddenPrefix_rex hrex]

/-- Settles O6: among the prefixes in front of a form that the decoder reads whole there is a forbidden one. -/
theorem forbiddenPrefixUndefined : Obligations.ForbiddenPrefixUndefined := by
  intro m p pre i rest hwf hpre ⟨c, hc, hforbidden⟩
  have hm : m ≠ .mode64 → m = .mode32 := by
    have hne := ne_legacy_of_wf hwf
    cases m <;> simp_all
  obtain ⟨x, modrm, bs, henc, -, -, -, hwhole⟩ := wholeForm_encode hm hwf
  have hprefixes := isPrefix_append_map_byte (fun b hb => isPrefix_of_mem (hpre b hb)) x
  have hbad : (pre ++ x.map LegacyPrefix.byte).any (forbiddenPrefix m) = true :=
    List.any_eq_true.mpr ⟨c, List.mem_append_left _ hc, forbiddenPrefix_of_mem hforbidden⟩
  rw [henc, ← List.append_assoc, List.append_assoc _ bs, (hwhole rest).decode_prefixed hprefixes, hbad]
  exact (hwhole rest).undefined_of_forbidden p _
end Sys2Proof
end

section
/-! PROOFS. More or fewer bytes: what the decoder answers for a form that is cut off, and for bytes that go on; and so what a
step does with more than 15 bytes, or with none of the forms (O15). -/

namespace Sys2Proof

/-! ## A form, whole and cut off -/

theorem evexAnswer_answered (m : DecodeMode) (p : B1RegNon512) (x : List LegacyPrefix) (f : Form) (p0 p1 p2 modrm : Byte)
    (rm : RmField) (rest : List Byte) :
    evexAnswer m p x f p0 p1 p2 modrm rm rest ≠ .truncated ∧ evexAnswer m p x f p0 p1 p2 modrm rm rest ≠ .notInSpec := by
  unfold evexAnswer
  split
  · exact ⟨nofun, nofun⟩
  · split_ifs <;> exact ⟨nofun, nofun⟩

/-- A form that is read whole is answered, if only by #UD or a refusal of `Mode32`. -/
theorem WholeForm.answered {m : DecodeMode} {modrm : Byte} {bs rest : List Byte} (h : WholeForm m modrm rest bs)
    (p : B1RegNon512) (x : List LegacyPrefix) (bad : Bool) :
    decodeOpened m p x bad bs ≠ .truncated ∧ decodeOpened m p x bad bs ≠ .notInSpec := by
  cases h with
  | @vex b1 b2 f tail rm top fixed read =>
    have hopen : decodeOpened m p x bad (0xC4#8 :: b1 :: b2 :: f.opcode :: modrm :: tail) = _ :=
      decodeVex_of_fixed top fixed x bad f (modrm :: tail)
    rw [hopen]
    cases h16 : addressing16? m x modrm with
    | true =>
      rw [decodeVexOperands_of_addressing16 h16]
      split_ifs <;> exact ⟨nofun, nofun⟩
    | false =>
      rw [decodeVexOperands_of_some h16 read]
      split_ifs <;> exact ⟨nofun, nofun⟩
  | @evex p0 p1 p2 f tail rm top fixed read =>
    have hopen : decodeOpened m p x bad (0x62#8 :: p0 :: p1 :: p2 :: f.opcode :: modrm :: tail) = _ :=
      decodeEvex_of_fixed top fixed p x bad f p2 (modrm :: tail)
    rw [hopen]
    cases h16 : addressing16? m x modrm with
    | true =>
      rw [decodeEvexOperands_of_addressing16 h16]
      split_ifs <;> exact ⟨nofun, nofun⟩
    | false =>
      rw [decodeEvexOperands_of_some h16 read]
      split_ifs
      · exact ⟨nofun, nofun⟩
      · exact evexAnswer_answered _ _ _ _ _ _ _ _ _ _

/-- The byte `67H` asks for 16-bit addressing in `Mode32` alone, and only of a memory operand (R127). -/
theorem addressing16?_prefixes {m m' : DecodeMode} {pre : List Byte} {x : List LegacyPrefix} {modrm : Byte}
    (hm : m = .mode32 → m' = .mode32) (hx : addressing16? m' x modrm = false)
    (hpre : m = .mode32 → 0x67#8 ∈ pre → modrm.extractLsb' 6 2 = 0b11#2) :
    addressing16? m ((pre ++ x.map LegacyPrefix.byte).filterMap legacyPrefix?) modrm = false := by
  cases m with
  | mode64 | legacy => rfl
  | mode32 =>
    by_cases hmod : modrm.extractLsb' 6 2 = 0b11#2
    · exact addressing16?_of_mod11 hmod _ _
    · have hnotx : LegacyPrefix.addressSize ∉ x := by simpa [addressing16?, hm rfl, hmod] using hx
      have hback : (x.map LegacyPrefix.byte).filterMap legacyPrefix? = x := by
        simp [List.filterMap_map, legacyPrefix?_byte]
      have hnotpre : LegacyPrefix.addressSize ∉ pre.filterMap legacyPrefix? := fun hmem => by
        obtain ⟨b, hb, hsize⟩ := List.mem_filterMap.mp hmem
        obtain rfl := legacyPrefix?_eq_some hsize
        exact hmod (hpre rfl hb)
      simp [addressing16?, List.filterMap_append, hback, hnotx, hnotpre]

/-- The decoder asks for more of a form that is cut off anywhere; where it would refuse 16-bit addressing it asks for no byte
after ModRM, and that is left out. -/
theorem WholeForm.truncated_of_cut {m : DecodeMode} {modrm : Byte} {bs cut : List Byte}
    (h : WholeForm m modrm [] (bs ++ cut)) (hcut : cut ≠ []) {x : List LegacyPrefix}
    (h16 : addressing16? m x modrm = false) (p : B1RegNon512) (bad : Bool) : decodeOpened m p x bad bs = .truncated := by
  generalize hw : bs ++ cut = w at h
  cases h with
  | vex top fixed read =>
    rcases bs with _ | ⟨c0, _ | ⟨c1, _ | ⟨c2, _ | ⟨c3, _ | ⟨c4, bs⟩⟩⟩⟩⟩ <;> cases hw
    · rfl
    · rfl
    · exact if_neg fun hne => hne.2 (top hne.1)
    · exact if_neg fun hne => hne.2 (top hne.1)
    · exact decodeVex_of_fixed top fixed x bad _ []
    · refine (decodeVex_of_fixed top fixed x bad _ (_ :: bs)).trans (decodeVexOperands_of_none h16 ?_ _ _ _)
      exact (prefixReader_rmField? _ _ _).eq_none_of_append read hcut
  | evex top fixed read =>
    rcases bs with _ | ⟨c0, _ | ⟨c1, _ | ⟨c2, _ | ⟨c3, _ | ⟨c4, _ | ⟨c5, bs⟩⟩⟩⟩⟩⟩ <;> cases hw
    · rfl
    · rfl
    · exact if_neg fun hne => hne.2 (top hne.1)
    · exact if_neg fun hne => hne.2 (top hne.1)
    · exact if_neg fun hne => hne.2 (top hne.1)
    · exact decodeEvex_of_fixed top fixed p x bad _ _ []
    · refine (decodeEvex_of_fixed top fixed p x bad _ _ (_ :: bs)).trans (decodeEvexOperands_of_none h16 ?_ _ _ _ _ _)
      exact (prefixReader_rmField? _ _ _).eq_none_of_append read hcut

/-- Prefixes and a form, cut off anywhere. -/
theorem decode_of_cut {m : DecodeMode} {modrm : Byte} {pre form bs cut : List Byte} (hform : WholeForm m modrm [] form)
    (hpre : ∀ b ∈ pre, isPrefix m b = true) (h16 : addressing16? m (pre.filterMap legacyPrefix?) modrm = false)
    (heq : bs ++ cut = pre ++ form) (hcut : cut ≠ []) (p : B1RegNon512) : decode m p bs = .truncated := by
  obtain ⟨more, rfl, -⟩ | ⟨begun, rfl, rfl⟩ := List.append_eq_append_iff.mp heq
  · exact decode_of_all_prefixes (fun b hb => hpre b (List.mem_append_left _ hb)) p
  · cases begun with
    | nil => exact decode_of_all_prefixes (by simpa using hpre) p
    | cons b begun =>
      obtain ⟨c, tail, hc, hopen⟩ := hform.opening
      obtain ⟨rfl, -⟩ := List.cons.inj hc
      rw [decode_append_prefixes hpre hopen]
      exact hform.truncated_of_cut hcut h16 p _

/-! ## Bytes that go on -/

/-- The answer when the bytes `e` follow those that the decoder was given. -/
def Decoded.withMore (e : List Byte) : Decoded → Decoded
  | .instr i rest => .instr i (rest ++ e)
  | .undefined => .undefined
  | .truncated => .truncated
  | .notInSpec => .notInSpec
  | .mode32Register => .mode32Register
  | .addressing16 => .addressing16

theorem decodeVexOperands_append {m : DecodeMode} {x : List LegacyPrefix} {bad : Bool} {f : Form} {b1 b2 : Byte}
    {bs : List Byte} (h : decodeVexOperands m x bad f b1 b2 bs ≠ .truncated) (e : List Byte) :
    decodeVexOperands m x bad f b1 b2 (bs ++ e) = (decodeVexOperands m x bad f b1 b2 bs).withMore e := by
  cases bs with
  | nil => exact absurd rfl h
  | cons modrm bs =>
    rw [List.cons_append]
    cases h16 : addressing16? m x modrm with
    | true =>
      simp only [decodeVexOperands_of_addressing16 h16]
      cases bad <;> rfl
    | false =>
      cases hrm : vexRmField? m b1 modrm bs with
      | none => exact absurd (decodeVexOperands_of_none h16 hrm bad f b2) h
      | some r =>
        rw [decodeVexOperands_of_some h16 hrm, decodeVexOperands_of_some h16 ((prefixReader_rmField? _ _ _).append hrm e)]
        cases bad <;> rfl

theorem evexAnswer_append (m : DecodeMode) (p : B1RegNon512) (x : List LegacyPrefix) (f : Form) (p0 p1 p2 modrm : Byte)
    (rm : RmField) (rest e : List Byte) :
    evexAnswer m p x f p0 p1 p2 modrm rm (rest ++ e) = (evexAnswer m p x f p0 p1 p2 modrm rm rest).withMore e := by
  unfold evexAnswer
  split
  · rfl
  · split <;> rfl

theorem decodeEvexOperands_append {m : DecodeMode} {p : B1RegNon512} {x : List LegacyPrefix} {bad : Bool} {f : Form}
    {p0 p1 p2 : Byte} {bs : List Byte} (h : decodeEvexOperands m p x bad f p0 p1 p2 bs ≠ .truncated) (e : List Byte) :
    decodeEvexOperands m p x bad f p0 p1 p2 (bs ++ e) = (decodeEvexOperands m p x bad f p0 p1 p2 bs).withMore e := by
  cases bs with
  | nil => exact absurd rfl h
  | cons modrm bs =>
    rw [List.cons_append]
    cases h16 : addressing16? m x modrm with
    | true =>
      simp only [decodeEvexOperands_of_addressing16 h16]
      split_ifs <;> rfl
    | false =>
      cases hrm : evexRmField? m p0 modrm bs with
      | none => exact absurd (decodeEvexOperands_of_none h16 hrm p bad f p1 p2) h
      | some r =>
        rw [decodeEvexOperands_of_some h16 hrm, decodeEvexOperands_of_some h16 ((prefixReader_rmField? _ _ _).append hrm e),
          evexAnswer_append]
        split_ifs <;> rfl

/-- Behind `C4H` and three bytes the decoder comes to the operands of a form, or has its answer (R54, R67). -/
theorem decodeVex_cases (m : DecodeMode) (x : List LegacyPrefix) (bad : Bool) (b1 b2 op : Byte) :
    (∃ bad' f, ∀ bs, decodeVex m x bad (b1 :: b2 :: op :: bs) = decodeVexOperands m x bad' f b1 b2 bs) ∨
      (∀ bs, decodeVex m x bad (b1 :: b2 :: op :: bs) = .undefined) ∨
      ∀ bs, decodeVex m x bad (b1 :: b2 :: op :: bs) = .notInSpec := by
  by_cases hles : m ≠ .mode64 ∧ b1.extractLsb' 6 2 ≠ 0b11#2
  · exact .inr (.inr fun _ => if_pos hles)
  simp only [decodeVex, if_neg hles]
  cases form? op with
  | none =>
    dsimp only
    split_ifs
    · exact .inr (.inl fun _ => rfl)
    · exact .inr (.inr fun _ => rfl)
  | some f =>
    dsimp only
    split_ifs
    · exact .inl ⟨_, _, fun _ => rfl⟩
    · exact .inr (.inl fun _ => rfl)
    · exact .inr (.inr fun _ => rfl)

/-- Behind `62H` and four bytes the decoder comes to the operands of a form, or has its answer (R57, R66, R67). -/
theorem decodeEvex_cases (m : DecodeMode) (p : B1RegNon512) (x : List LegacyPrefix) (bad : Bool) (p0 p1 p2 op : Byte) :
    (∃ bad' f, ∀ bs, decodeEvex m p x bad (p0 :: p1 :: p2 :: op :: bs) = decodeEvexOperands m p x bad' f p0 p1 p2 bs) ∨
      (∀ bs, decodeEvex m p x bad (p0 :: p1 :: p2 :: op :: bs) = .undefined) ∨
      ∀ bs, decodeEvex m p x bad (p0 :: p1 :: p2 :: op :: bs) = .notInSpec := by
  by_cases hbound : m ≠ .mode64 ∧ p0.extractLsb' 6 2 ≠ 0b11#2
  · exact .inr (.inr fun _ => if_pos hbound)
  simp only [decodeEvex, if_neg hbound]
  cases form? op with
  | none =>
    dsimp only
    split_ifs
    · exact .inr (.inl fun _ => rfl)
    · exact .inr (.inr fun _ => rfl)
  | some f =>
    dsimp only
    split_ifs
    · exact .inl ⟨_, _, fun _ => rfl⟩
    · exact .inr (.inl fun _ => rfl)
    · exact .inr (.inr fun _ => rfl)

theorem decodeVex_append {m : DecodeMode} {x : List LegacyPrefix} {bad : Bool} {bs : List Byte}
    (h : decodeVex m x bad bs ≠ .truncated) (e : List Byte) :
    decodeVex m x bad (bs ++ e) = (decodeVex m x bad bs).withMore e := by
  match bs with
  | [] => exact absurd rfl h
  | [b1] | [b1, b2] =>
    by_cases hles : m ≠ .mode64 ∧ b1.extractLsb' 6 2 ≠ 0b11#2
    · simp [decodeVex, hles, Decoded.withMore]
    · exact absurd (if_neg hles) h
  | b1 :: b2 :: op :: bs =>
    simp only [List.cons_append]
    obtain ⟨bad', f, hop⟩ | hdone | hdone := decodeVex_cases m x bad b1 b2 op
    · rw [hop] at h
      rw [hop, hop, decodeVexOperands_append h]
    all_goals
      rw [hdone, hdone]
      rfl

theorem decodeEvex_append {m : DecodeMode} {p : B1RegNon512} {x : List LegacyPrefix} {bad : Bool} {bs : List Byte}
    (h : decodeEvex m p x bad bs ≠ .truncated) (e : List Byte) :
    decodeEvex m p x bad (bs ++ e) = (decodeEvex m p x bad bs).withMore e := by
  match bs with
  | [] => exact absurd rfl h
  | [p0] | [p0, p1] | [p0, p1, p2] =>
    by_cases hbound : m ≠ .mode64 ∧ p0.extractLsb' 6 2 ≠ 0b11#2
    · simp [decodeEvex, hbound, Decoded.withMore]
    · exact absurd (if_neg hbound) h
  | p0 :: p1 :: p2 :: op :: bs =>
    simp only [List.cons_append]
    obtain ⟨bad', f, hop⟩ | hdone | hdone := decodeEvex_cases m p x bad p0 p1 p2 op
    · rw [hop] at h
      rw [hop, hop, decodeEvexOperands_append h]
    all_goals
      rw [hdone, hdone]
      rfl

theorem decodeVex2_append {m : DecodeMode} {bs : List Byte} (h : decodeVex2 m bs ≠ .truncated) (e : List Byte) :
    decodeVex2 m (bs ++ e) = (decodeVex2 m bs).withMore e := by
  cases m with
  | mode64 | mode32 => rfl
  | legacy =>
    cases bs with
    | nil => exact absurd rfl h
    | cons b bs =>
      simp only [decodeVex2, List.cons_append]
      split_ifs <;> rfl

theorem decodeOpened_append {m : DecodeMode} {p : B1RegNon512} {x : List LegacyPrefix} {bad : Bool} {bs : List Byte}
    (h : decodeOpened m p x bad bs ≠ .truncated) (e : List Byte) :
    decodeOpened m p x bad (bs ++ e) = (decodeOpened m p x bad bs).withMore e := by
  cases bs with
  | nil => exact absurd rfl h
  | cons b bs =>
    simp only [decodeOpened, List.cons_append] at h ⊢
    split_ifs at h ⊢
    · exact decodeVex_append h e
    · exact decodeEvex_append h e
    · exact decodeVex2_append h e
    · rfl

/-- Once the decoder has its answer, bytes that follow change nothing. -/
theorem decode_append {m : DecodeMode} {p : B1RegNon512} {bs : List Byte} (h : decode m p bs ≠ .truncated) (e : List Byte) :
    decode m p (bs ++ e) = (decode m p bs).withMore e := by
  have hpre : ∀ b ∈ bs.takeWhile (isPrefix m), isPrefix m b = true := fun b => List.mem_takeWhile_imp
  cases hd : bs.dropWhile (isPrefix m) with
  | nil => exact absurd (decode_of_all_prefixes (List.dropWhile_eq_nil_iff.mp hd) p) h
  | cons b tail =>
    have hb : isPrefix m b = false := by
      have := List.head_dropWhile_not (p := isPrefix m) (l := bs) (by simp [hd])
      simpa [hd] using this
    have hbs : bs = bs.takeWhile (isPrefix m) ++ b :: tail := by rw [← hd, List.takeWhile_append_dropWhile]
    rw [hbs, decode_append_prefixes hpre hb] at h
    rw [hbs, List.append_assoc, List.cons_append, decode_append_prefixes hpre hb, decode_append_prefixes hpre hb]
    exact decodeOpened_append h e

/-! ## Enough bytes -/

theorem decodeVexOperands_ne_truncated {bs : List Byte} (h : 6 ≤ bs.length) (m : DecodeMode) (x : List LegacyPrefix)
    (bad : Bool) (f : Form) (b1 b2 : Byte) : decodeVexOperands m x bad f b1 b2 bs ≠ .truncated := by
  match bs, h with
  | modrm :: bs, h =>
    cases h16 : addressing16? m x modrm with
    | true =>
      rw [decodeVexOperands_of_addressing16 h16]
      split_ifs <;> exact nofun
    | false =>
      obtain ⟨⟨rm, rest⟩, hrm⟩ := rmField?_of_length (Nat.le_of_succ_le_succ h) (~~~b1.extractLsb' 6 1)
        (extB m (~~~b1.extractLsb' 5 1)) modrm
      rw [decodeVexOperands_of_some h16 hrm]
      split_ifs <;> exact nofun

theorem decodeEvexOperands_ne_truncated {bs : List Byte} (h : 6 ≤ bs.length) (m : DecodeMode) (p : B1RegNon512)
    (x : List LegacyPrefix) (bad : Bool) (f : Form) (p0 p1 p2 : Byte) :
    decodeEvexOperands m p x bad f p0 p1 p2 bs ≠ .truncated := by
  match bs, h with
  | modrm :: bs, h =>
    cases h16 : addressing16? m x modrm with
    | true =>
      rw [decodeEvexOperands_of_addressing16 h16]
      split_ifs <;> exact nofun
    | false =>
      obtain ⟨⟨rm, rest⟩, hrm⟩ := rmField?_of_length (Nat.le_of_succ_le_succ h) (~~~p0.extractLsb' 6 1)
        (extB m (~~~p0.extractLsb' 5 1)) modrm
      rw [decodeEvexOperands_of_some h16 hrm]
      split_ifs
      · exact nofun
      · exact (evexAnswer_answered _ _ _ _ _ _ _ _ _ _).1

theorem decodeVex_ne_truncated {bs : List Byte} (h : 10 ≤ bs.length) (m : DecodeMode) (x : List LegacyPrefix) (bad : Bool) :
    decodeVex m x bad bs ≠ .truncated := by
  match bs, h with
  | b1 :: b2 :: op :: bs, h =>
    have hlen : 6 ≤ bs.length := by simp only [List.length_cons] at h; omega
    obtain ⟨bad', f, hop⟩ | hdone | hdone := decodeVex_cases m x bad b1 b2 op
    · rw [hop]
      exact decodeVexOperands_ne_truncated hlen m x bad' f b1 b2
    all_goals
      rw [hdone]
      exact nofun

theorem decodeEvex_ne_truncated {bs : List Byte} (h : 10 ≤ bs.length) (m : DecodeMode) (p : B1RegNon512)
    (x : List LegacyPrefix) (bad : Bool) : decodeEvex m p x bad bs ≠ .truncated := by
  match bs, h with
  | p0 :: p1 :: p2 :: op :: bs, h =>
    have hlen : 6 ≤ bs.length := by simp only [List.length_cons] at h; omega
    obtain ⟨bad', f, hop⟩ | hdone | hdone := decodeEvex_cases m p x bad p0 p1 p2 op
    · rw [hop]
      exact decodeEvexOperands_ne_truncated hlen m p x bad' f p0 p1 p2
    all_goals
      rw [hdone]
      exact nofun

/-- The longest form behind the prefixes is all that the decoder needs (R52). -/
theorem decodeOpened_ne_truncated {bs : List Byte} (h : longestForm ≤ bs.length) (m : DecodeMode) (p : B1RegNon512)
    (x : List LegacyPrefix) (bad : Bool) : decodeOpened m p x bad bs ≠ .truncated := by
  match bs, h with
  | b :: bs, h =>
    have hlen : 10 ≤ bs.length := Nat.le_of_succ_le_succ h
    simp only [decodeOpened]
    split_ifs
    · exact decodeVex_ne_truncated hlen m x bad
    · exact decodeEvex_ne_truncated hlen m p x bad
    · cases m with
      | mode64 | mode32 => exact nofun
      | legacy =>
        match bs, hlen with
        | c :: bs, _ =>
          simp only [decodeVex2]
          split_ifs <;> exact nofun
    · exact nofun

theorem length_le_dropWhile {p : Byte → Bool} {bs : List Byte} {q : Nat} (hq : q < bs.length) (hp : p bs[q] = false) :
    bs.length ≤ q + (bs.dropWhile p).length := by
  have hstop : (bs.takeWhile p).length ≤ q := by
    by_contra hlt
    have hmem := List.mem_takeWhile_imp (List.getElem_mem (Nat.lt_of_not_le hlt))
    rw [(List.takeWhile_prefix p).getElem, hp] at hmem
    cases hmem
  have hlen := congrArg List.length (List.takeWhile_append_dropWhile (p := p) (l := bs))
  rw [List.length_append] at hlen
  omega

theorem decode_ne_truncated {m : DecodeMode} {bs : List Byte} (h : longestForm ≤ (bs.dropWhile (isPrefix m)).length)
    (p : B1RegNon512) : decode m p bs ≠ .truncated := by
  rw [decode_eq]
  exact decodeOpened_ne_truncated h m p _ _

end Sys2Proof

namespace Sys2Proof.Machine

/-! ## The step where the fetch stops -/

theorem codeHits_of_debugQuiet {s : State} (hq : s.debugQuiet = true) : codeHits s = 0 :=
  hitBits_eq_zero fun n hn => by simp only [drEnabled_eq_false_of_debugQuiet hq hn, Bool.false_and]

theorem step_of_fetch_stop {s : State} {r : Result} (hq : s.debugQuiet = true) (h : fetch s = .stop r) :
    step s = deliver r := by
  simp only [step, stepInstr, codeHits_of_debugQuiet hq, if_true, h]

theorem fetch_of_notInSpec {s : State}
    (h : decode s.decodeMode s.cfg.b1RegNon512 (fetchWindow s maxLength 0).1 = .notInSpec) :
    fetch s = .stop (.refused .notInSpec) := by
  simp only [fetch, h]

theorem fetch_of_truncated {s : State}
    (h : decode s.decodeMode s.cfg.b1RegNon512 (fetchWindow s maxLength 0).1 = .truncated)
    (hall : (fetchWindow s maxLength 0).2 = none) : fetch s = .stop (overlong s) := by
  simp only [fetch, h, hall, Option.getD_none]

theorem overlong_of_notInSpec {s : State} (h : decode s.decodeMode s.cfg.b1RegNon512
    (fetchWindow s (prefixRun s (2 ^ 64) 0 + longestForm) 0).1 = .notInSpec) : overlong s = .refused .notInSpec := by
  simp only [overlong, h]

theorem overlong_of_answered {s : State} {d : Decoded} (h : decode s.decodeMode s.cfg.b1RegNon512
    (fetchWindow s (prefixRun s (2 ^ 64) 0 + longestForm) 0).1 = d) (hd : d ≠ .truncated ∧ d ≠ .notInSpec) :
    overlong s = raise .gp s := by
  obtain ⟨htruncated, hrefused⟩ := hd
  cases d with
  | truncated => exact absurd rfl htruncated
  | notInSpec => exact absurd rfl hrefused
  | instr i rest => simp only [overlong, h]
  | undefined => simp only [overlong, h]
  | mode32Register => simp only [overlong, h]
  | addressing16 => simp only [overlong, h]

/-! ## The window and the prefixes in it -/

/-- There are no more than `2^64` code addresses (R22, R123). -/
theorem lt_of_fetchable {s : State} {k : Nat} (h : fetchStop s k = none) : k < 2 ^ 64 := by
  have hin : codeInBounds s k = true := by
    by_contra hout
    simp [fetchStop, hout] at h
  unfold codeInBounds at hin
  split at hin
  · obtain ⟨hpc, -⟩ : s.pc + k < 2 ^ 64 ∧ s.canonical (codeAddress s k) = true := by simpa using hin
    omega
  · have hlimit : s.rip.toNat + k ≤ s.cs.limit.toNat := of_decide_eq_true hin
    omega

theorem fetchWindow_of_fetchable {s : State} (n : Nat) :
    ∀ k : Nat, (∀ j < n, fetchStop s (k + j) = none) →
      fetchWindow s n k = ((List.range' k n).map (fetchByte s), none) := by
  induction n with
  | zero => exact fun _ _ => rfl
  | succ n ih =>
    intro k h
    have hrest := ih (k + 1) fun j hj => by
      rw [Nat.add_right_comm, Nat.add_assoc]
      exact h (j + 1) (Nat.succ_lt_succ hj)
    have hfirst : fetchStop s k = none := h 0 (Nat.zero_lt_succ n)
    simp only [fetchWindow, hfirst, hrest, List.range'_succ, List.map_cons]

/-- Where the run of prefixes ends before its bound, the byte after it is none, if it can be fetched. -/
theorem isPrefix_at_prefixRun {s : State} (n : Nat) :
    ∀ k : Nat, prefixRun s n k < n → fetchStop s (k + prefixRun s n k) = none →
      isPrefix s.decodeMode (fetchByte s (k + prefixRun s n k)) = false := by
  induction n with
  | zero => exact fun _ h => absurd h (Nat.not_lt_zero _)
  | succ n ih =>
    intro k hlt hfetch
    unfold prefixRun at hlt hfetch ⊢
    split at hlt
    case isTrue hmore =>
      simp only [if_pos hmore] at hfetch ⊢
      rw [Nat.add_comm _ 1, ← Nat.add_assoc] at hfetch ⊢
      exact ih (k + 1) (Nat.lt_of_succ_lt_succ hlt) hfetch
    case isFalse hend =>
      simp only [if_neg hend] at hfetch ⊢
      rw [Nat.add_zero] at hfetch ⊢
      simpa [hfetch] using hend

theorem isPrefix_after_prefixes {s : State} (h : fetchStop s (prefixRun s (2 ^ 64) 0) = none) :
    isPrefix s.decodeMode (fetchByte s (prefixRun s (2 ^ 64) 0)) = false := by
  have hend := isPrefix_at_prefixRun (s := s) (2 ^ 64) 0
  rw [Nat.zero_add] at hend
  exact hend (lt_of_fetchable h) h

/-! ## More than 15 bytes -/

section
variable {s : State} {bs : List Byte}
  (hbytes : ∀ (n : Nat) (h : n < bs.length), fetchStop s n = none ∧ fetchByte s n = bs[n])
include hbytes

theorem fetchWindow_of_bytes {n : Nat} (hn : n ≤ bs.length) : fetchWindow s n 0 = (bs.take n, none) := by
  rw [fetchWindow_of_fetchable n 0 fun j hj => by rw [Nat.zero_add]; exact (hbytes j (by omega)).1]
  congr 1
  refine List.ext_getElem (by simp [hn]) fun j hj _ => ?_
  have hj : j < n := by simpa using hj
  simp [(hbytes j (by omega)).2]

/-- The prefixes that stand at the instruction pointer are counted. -/
theorem length_le_prefixRun {pre form : List Byte} (hbs : bs = pre ++ form)
    (hpre : ∀ b ∈ pre, isPrefix s.decodeMode b = true) : pre.length ≤ prefixRun s (2 ^ 64) 0 := by
  by_contra hlt
  have hlen : prefixRun s (2 ^ 64) 0 < pre.length := Nat.lt_of_not_le hlt
  subst hbs
  obtain ⟨hfetch, hbyte⟩ := hbytes (prefixRun s (2 ^ 64) 0) (by rw [List.length_append]; omega)
  have hend := isPrefix_after_prefixes hfetch
  rw [hbyte, List.getElem_append_left hlen, hpre _ (List.getElem_mem hlen)] at hend
  cases hend

end

/-- Prefixes and a form, more than 15 bytes together that can all be fetched, stop the fetch with #GP(0) (R147 row 3). -/
theorem fetch_of_overlong {s : State} {pre form : List Byte} {modrm : Byte}
    (hpre : ∀ b ∈ pre, isPrefix s.decodeMode b = true) (hform : ∀ rest, WholeForm s.decodeMode modrm rest (form ++ rest))
    (h16 : addressing16? s.decodeMode (pre.filterMap legacyPrefix?) modrm = false) (hlongest : form.length ≤ longestForm)
    (hlen : 15 < (pre ++ form).length)
    (hbytes : ∀ (n : Nat) (h : n < (pre ++ form).length), fetchStop s n = none ∧ fetchByte s n = (pre ++ form)[n]) :
    fetch s = .stop (raise .gp s) := by
  have hwindow := fetchWindow_of_bytes hbytes (n := maxLength) hlen.le
  have hcut : decode s.decodeMode s.cfg.b1RegNon512 ((pre ++ form).take maxLength) = .truncated :=
    decode_of_cut (by simpa using hform []) hpre h16 (List.take_append_drop maxLength _)
      (by rw [ne_eq, List.drop_eq_nil_iff]; exact hlen.not_ge) _
  have hall : (pre ++ form).length ≤ prefixRun s (2 ^ 64) 0 + longestForm := by
    rw [List.length_append]
    exact Nat.add_le_add (length_le_prefixRun hbytes rfl hpre) hlongest
  obtain ⟨rest, hrest⟩ := fetchWindow_starts_with (pre ++ form) _ 0 hall fun j hj => by
    rw [Nat.zero_add]
    exact hbytes j hj
  have hdecode := (hform rest).decode_prefixed hpre s.cfg.b1RegNon512
  rw [← List.append_assoc, ← hrest] at hdecode
  rw [fetch_of_truncated (by rw [hwindow]; exact hcut) (by rw [hwindow]),
    overlong_of_answered hdecode ((hform rest).answered _ _ _)]

/-! ## None of the forms -/

section
variable {s : State} {k : Nat} (hfetch : ∀ n, n < k → fetchStop s n = none)
  (hnone : decode s.decodeMode s.cfg.b1RegNon512 ((List.range k).map (fetchByte s)) = .notInSpec)
include hfetch hnone

/-- Where the first `k` bytes are none of the forms, a window is refused too, or it is shorter and the decoder asks for more. -/
theorem decode_fetchWindow_of_notInSpec (n : Nat) :
    decode s.decodeMode s.cfg.b1RegNon512 (fetchWindow s n 0).1 = .notInSpec ∨
      n < k ∧ decode s.decodeMode s.cfg.b1RegNon512 (fetchWindow s n 0).1 = .truncated := by
  by_cases hkn : k ≤ n
  · obtain ⟨rest, hrest⟩ := fetchWindow_starts_with ((List.range k).map (fetchByte s)) n 0 (by simpa using hkn) fun j hj => by
      rw [Nat.zero_add]
      exact ⟨hfetch j (by simpa using hj), by simp⟩
    refine .inl ?_
    rw [hrest, decode_append (by rw [hnone]; exact nofun), hnone]
    rfl
  · have hlt : n < k := Nat.lt_of_not_le hkn
    by_cases htruncated : decode s.decodeMode s.cfg.b1RegNon512 (fetchWindow s n 0).1 = .truncated
    · exact .inr ⟨hlt, htruncated⟩
    · refine .inl ?_
      have hsplit : (List.range k).map (fetchByte s) =
          (fetchWindow s n 0).1 ++ (List.range' n (k - n)).map (fetchByte s) := by
        rw [fetchWindow_of_fetchable n 0 fun j hj => by rw [Nat.zero_add]; exact hfetch j (by omega), ← List.map_append,
          List.range_eq_range']
        congr 1
        have := List.range'_append (s := 0) (m := n) (n := k - n) (step := 1)
        rw [Nat.one_mul, Nat.zero_add, Nat.add_sub_cancel' hlt.le] at this
        exact this.symm
      rw [hsplit, decode_append htruncated] at hnone
      revert hnone
      cases decode s.decodeMode s.cfg.b1RegNon512 (fetchWindow s n 0).1 <;> intro h <;> cases h
      rfl

theorem overlong_of_notInSpec_bytes : overlong s = .refused .notInSpec := by
  have hwindow := decode_fetchWindow_of_notInSpec hfetch hnone (prefixRun s (2 ^ 64) 0 + longestForm)
  obtain hrefused | ⟨hlt, htruncated⟩ := hwindow
  · exact overlong_of_notInSpec hrefused
  · have hend := isPrefix_after_prefixes (hfetch _ (Nat.lt_of_le_of_lt (Nat.le_add_right ..) hlt))
    rw [fetchWindow_of_fetchable _ 0 fun j hj => by rw [Nat.zero_add]; exact hfetch j (by omega)] at htruncated
    have hrest := length_le_dropWhile (p := isPrefix s.decodeMode) (q := prefixRun s (2 ^ 64) 0)
      (bs := (List.range' 0 (prefixRun s (2 ^ 64) 0 + longestForm)).map (fetchByte s))
      (by rw [List.length_map, List.length_range']; exact Nat.lt_add_of_pos_right (by decide))
      (by rw [List.getElem_map, List.getElem_range', Nat.zero_add, Nat.one_mul, hend])
    rw [List.length_map, List.length_range'] at hrest
    exact absurd htruncated (decode_ne_truncated (Nat.le_of_add_le_add_left hrest) _)

theorem fetch_of_notInSpec_bytes : fetch s = .stop (.refused .notInSpec) := by
  obtain hrefused | ⟨hlt, htruncated⟩ := decode_fetchWindow_of_notInSpec hfetch hnone maxLength
  · exact fetch_of_notInSpec hrefused
  · have hwindow := fetchWindow_of_fetchable (s := s) maxLength 0 fun j hj => by
      rw [Nat.zero_add]
      exact hfetch j (hj.trans hlt)
    rw [fetch_of_truncated htruncated (by rw [hwindow]), overlong_of_notInSpec_bytes hfetch hnone]

end

/-- Settles O15: fifteen bytes of an over-long form are a form cut off, and the decoder reads it whole from all of them; bytes
that are none of the forms stay so in every window that is long enough. -/
theorem overlongInstructionFaults : Obligations.OverlongInstructionFaults := by
  refine ⟨fun s pre i hq hwf hpre h67 hlen hbytes => ?_, fun s k hq hfetch hnone => ?_⟩
  · obtain ⟨x, modrm, form, henc, hlongest, hx, hreg, hform⟩ :=
      wholeForm_encode (m := s.decodeMode) (fun hne => if_neg hne) hwf
    have hsplit : pre ++ encode i = (pre ++ x.map LegacyPrefix.byte) ++ form := by rw [henc, List.append_assoc]
    simp only [hsplit] at hlen hbytes
    have hprefixes := isPrefix_append_map_byte (fun b hb => isPrefix_of_mem (hpre b hb)) x
    have h16 : addressing16? s.decodeMode ((pre ++ x.map LegacyPrefix.byte).filterMap legacyPrefix?) modrm = false :=
      addressing16?_prefixes (fun hm => by simp [hm]) hx fun hm hmem => hreg (h67 hm hmem)
    rw [step_of_fetch_stop hq (fetch_of_overlong hprefixes hform h16 hlongest hlen hbytes)]
    rfl
  · rw [step_of_fetch_stop hq (fetch_of_notInSpec_bytes hfetch hnone)]
    rfl

end Sys2Proof.Machine
end

section
/-! PROOFS. What a completed form leaves as it was (O26), what the vector registers decide (O27, O29), and the third
operand's lanes (O43). -/

namespace Sys2Proof.Machine

/-! ## The frame of a completed form -/

/-- A completed form raises flags without `ZE` before its write-back, or none (R102, R137). -/
theorem afterFlags_eq_orFlags (s : State) (o : FormOp) : ∃ f : FpFlags, NoZeroDivide f ∧ afterFlags s o = s.orFlags f := by
  unfold afterFlags
  split
  · exact ⟨0, noZeroDivide_zero, by simp [State.orFlags]⟩
  · exact ⟨_, raisedFlags_noZeroDivide s o, rfl⟩

theorem frame_writeBack_orFlags (s0 s : State) (o : FormOp) (f : FpFlags) :
    Frame s (writeBack s0 o (s.orFlags f)) o.dest where
  cfg := rfl
  mode := rfl
  zmm _ hr := readZmm_writeBack_other s0 (s.orFlags f) o hr
  k _ := rfl
  gpr _ := rfl
  rflags := rfl
  seg g := by cases g <;> rfl
  control := ⟨rfl, rfl, rfl, rfl⟩
  debug := ⟨rfl, rfl, rfl, rfl, rfl, rfl⟩
  tables := ⟨rfl, rfl, rfl, rfl⟩
  mem _ := rfl
  freeCount := rfl

/-- Settles O26: a completed form is a write-back after flags other than `ZE` are raised. -/
theorem completedFormFrame : Obligations.CompletedFormFrame := by
  intro i s t h
  obtain ⟨-, rfl⟩ := exec_next h
  obtain ⟨f, hf, hflags⟩ := afterFlags_eq_orFlags s i.formOp
  rw [hflags]
  exact ⟨frame_writeBack_orFlags .., ⟨rfl, rfl⟩, f, hf, rfl⟩

/-! ## Other vector registers -/

/-- `s` with other vector registers. -/
def State.withZmm (s : State) (z : Vector Zmm 32) : State := { s with zmm := z }

/-- A result, the state of an exception being given other vector registers. -/
def stopWithZmm (z : Vector Zmm 32) : Result → Result
  | .next t => .next t
  | .fault (.exception e u) => .fault (.exception e (u.withZmm z))
  | .fault (.unmapped pa) => .fault (.unmapped pa)
  | .fault (.deliveryFailed e u) => .fault (.deliveryFailed e u)
  | .refused q => .refused q

/-- A response to flags, the state it holds being given other vector registers. -/
def responseWithZmm (z : Vector Zmm 32) : FpResponse → FpResponse
  | .completes t => .completes (t.withZmm z)
  | .faults t => .faults (t.withZmm z)

section
variable (s : State) (z : Vector Zmm 32)

@[simp] theorem withZmm_cfg : (s.withZmm z).cfg = s.cfg := rfl
@[simp] theorem withZmm_is64 : (s.withZmm z).is64 = s.is64 := rfl
@[simp] theorem withZmm_translate : (s.withZmm z).translate = s.translate := rfl
@[simp] theorem withZmm_cpl : (s.withZmm z).cpl = s.cpl := rfl
@[simp] theorem withZmm_effectiveAddress : effectiveAddress (s.withZmm z) = effectiveAddress s := by
  funext o m b
  cases m <;> rfl
@[simp] theorem withZmm_linearByte : linearByte (s.withZmm z) = linearByte s := rfl
@[simp] theorem withZmm_segmentFault : segmentFault (s.withZmm z) = segmentFault s := rfl
@[simp] theorem withZmm_alignmentFault : alignmentFault (s.withZmm z) = alignmentFault s := rfl
@[simp] theorem withZmm_segmentAllows : segmentAllows (s.withZmm z) = segmentAllows s := rfl
@[simp] theorem withZmm_neededBytes : neededBytes (s.withZmm z) = neededBytes s := rfl
@[simp] theorem withZmm_activeLane : activeLane (s.withZmm z) = activeLane s := rfl
@[simp] theorem withZmm_memLane : memLane (s.withZmm z) = memLane s := rfl
@[simp] theorem withZmm_recordFault (e : Exc) (a : Word64) :
    (s.withZmm z).recordFault e a = (s.recordFault e a).withZmm z := by
  cases e <;> rfl

@[simp] theorem withZmm_firstTranslationFault (acc : Access) (las : List Word64) :
    firstTranslationFault (s.withZmm z) acc las = firstTranslationFault s acc las := by
  induction las with
  | nil => rfl
  | cons la las ih => simp only [firstTranslationFault, withZmm_translate, withZmm_cpl, ih]

@[simp] theorem withZmm_firstInRegion (acc : Access) (kind : RegionKind) (las : List Word64) :
    firstInRegion (s.withZmm z) acc kind las = firstInRegion s acc kind las := by
  induction las with
  | nil => rfl
  | cons la las ih => simp only [firstInRegion, withZmm_translate, withZmm_cpl, withZmm_cfg, ih]

/-- No vector register takes part in the operand read but as the operand itself. -/
theorem operandStop_withZmm (o : FormOp) : operandStop (s.withZmm z) o = (operandStop s o).map (stopWithZmm z) := by
  simp only [operandStop, memOperandStop, neededAddresses, operandAddresses, withZmm_neededBytes, withZmm_is64,
    withZmm_effectiveAddress, withZmm_segmentFault, withZmm_alignmentFault, withZmm_segmentAllows, withZmm_linearByte,
    withZmm_firstTranslationFault, withZmm_firstInRegion, raiseTranslation, withZmm_recordFault]
  repeat' split
  all_goals rfl

theorem leaveFlags_withZmm (shown raised : FpFlags) :
    (s.withZmm z).leaveFlags shown raised = (s.leaveFlags shown raised).withZmm z := by
  unfold State.leaveFlags
  rw [withZmm_cfg]
  split <;> rfl

theorem fpRespond_withZmm (f : FpFlags) : fpRespond (s.withZmm z) f = responseWithZmm z (fpRespond s f) := by
  simp only [fpRespond, leaveFlags_withZmm]
  repeat' rw [apply_ite (responseWithZmm z)]
  rfl

end

/-! ## The lanes that two register files share -/

section
variable {s : State} {z : Vector Zmm 32} {o : FormOp}

theorem src3Lane_withZmm {j : Nat} (h : ∀ r, laneOf ((s.withZmm z).readZmm r) j = laneOf (s.readZmm r) j) :
    src3Lane (s.withZmm z) o j = src3Lane s o j := by
  simp only [src3Lane, h, withZmm_memLane, withZmm_effectiveAddress]

/-- The result of lane `j` is a function of lane `j` of the registers and of memory (R103). -/
theorem laneResult_withZmm {j : Nat} (h : ∀ r, laneOf ((s.withZmm z).readZmm r) j = laneOf (s.readZmm r) j) :
    laneResult (s.withZmm z) o j = laneResult s o j := by
  simp only [laneResult, h, src3Lane_withZmm h]
  rfl

theorem newLane_withZmm {j : Nat} (h : ∀ r, laneOf ((s.withZmm z).readZmm r) j = laneOf (s.readZmm r) j) :
    newLane (s.withZmm z) o j = newLane s o j := by
  simp only [newLane, laneResult_withZmm h, withZmm_activeLane, withZmm_cfg, h]

section
variable (h : ∀ r j, j < vecLanes o.vl → activeLane s o j = true →
  laneOf ((s.withZmm z).readZmm r) j = laneOf (s.readZmm r) j)
include h

theorem unionFlags_withZmm {n : Nat} (hn : n ≤ vecLanes o.vl) : unionFlags (s.withZmm z) o n = unionFlags s o n := by
  induction n with
  | zero => rfl
  | succ n ih =>
    rw [unionFlags, unionFlags, ih (by omega), withZmm_activeLane]
    by_cases hactive : activeLane s o n = true
    · rw [if_pos hactive, if_pos hactive, laneResult_withZmm fun r => h r n hn hactive]
    · rw [if_neg hactive, if_neg hactive]

theorem raisedFlags_withZmm : raisedFlags (s.withZmm z) o = raisedFlags s o := unionFlags_withZmm h le_rfl

theorem afterFlags_withZmm : afterFlags (s.withZmm z) o = (afterFlags s o).withZmm z := by
  have hsuppress : suppressAll (s.withZmm z) o = suppressAll s o := rfl
  simp only [afterFlags, hsuppress, raisedFlags_withZmm h]
  split <;> rfl

theorem completes_withZmm : Completes (s.withZmm z) o ↔ Completes s o := by
  have henabled : formEnabled (s.withZmm z) o = formEnabled s o := rfl
  have hts : (s.withZmm z).cr0TS = s.cr0TS := rfl
  have hquiet : fpQuiet (s.withZmm z) o = fpQuiet s o := by
    unfold fpQuiet
    rw [raisedFlags_withZmm h]
    rfl
  rw [Completes, Completes, henabled, hts, hquiet, operandStop_withZmm, Option.map_eq_none_iff]

/-- A form that does not complete stops in the same way under the other vector registers. -/
theorem execForm_withZmm_of_stop (hstop : ∀ t, execForm o s ≠ .next t) :
    execForm o (s.withZmm z) = stopWithZmm z (execForm o s) := by
  have henabled : formEnabled (s.withZmm z) o = formEnabled s o := rfl
  have hts : (s.withZmm z).cr0TS = s.cr0TS := rfl
  have hsuppress : suppressAll (s.withZmm z) o = suppressAll s o := rfl
  revert hstop
  simp only [execForm, henabled, hts, operandStop_withZmm]
  split
  · exact fun _ => rfl
  · split
    · exact fun _ => rfl
    · cases operandStop s o with
      | some r => exact fun _ => rfl
      | none =>
        simp only [Option.map_none, computeForm, hsuppress, unionFlags_withZmm h le_rfl, fpRespond_withZmm]
        split
        · exact fun hstop => absurd rfl (hstop _)
        · cases fpRespond s (unionFlags s o (vecLanes o.vl)) with
          | completes u => exact fun hstop => absurd rfl (hstop _)
          | faults u => exact fun _ => rfl

end

end

/-- Settles O27: completion, flags and active results depend on the active lanes, and a stop on nothing else. -/
theorem inactiveLanesAreSilent : Obligations.InactiveLanesAreSilent := by
  intro i s s' hs' hagree
  have hs' : s' = s.withZmm s'.zmm := hs'
  generalize s'.zmm = z at hs' ⊢
  subst hs'
  simp only [exec_eq_execForm]
  refine ⟨?_, fun t t' ht ht' => ?_, fun e u hu => ?_⟩
  · simp only [execForm_next_iff, exists_and_left, exists_eq, and_true]
    exact (completes_withZmm hagree).symm
  · obtain ⟨-, rfl⟩ := execForm_next_iff.mp ht
    obtain ⟨-, rfl⟩ := execForm_next_iff.mp ht'
    refine ⟨?_, fun j hj hactive => ?_⟩
    · rw [writeBack_mxcsr, writeBack_mxcsr, afterFlags_withZmm hagree]
      rfl
    · have hj8 : j < 8 := hj.trans_le (vecLanes_le_eight _)
      rw [readZmm_writeBack_self, readZmm_writeBack_self, laneOf_ofLanes _ _ hj8, laneOf_ofLanes _ _ hj8,
        newLane_withZmm fun r => hagree r j hj hactive]
  · rw [execForm_withZmm_of_stop hagree (by simp [hu]), hu]
    rfl

/-- Settles O29: the write-back puts `newLane` in lane `j`, which reads lane `j` of the registers alone. -/
theorem lanesAreIndependent : Obligations.LanesAreIndependent := by
  intro i s s' t t' j hs' hagree ht ht'
  have hs' : s' = s.withZmm s'.zmm := hs'
  generalize s'.zmm = z at hs'
  subst hs'
  obtain ⟨-, rfl⟩ := exec_next ht
  obtain ⟨-, rfl⟩ := exec_next ht'
  rw [readZmm_writeBack_self, readZmm_writeBack_self]
  by_cases hj : j < 8
  · rw [laneOf_ofLanes _ _ hj, laneOf_ofLanes _ _ hj, newLane_withZmm hagree]
  · rw [laneOf_high _ (Nat.le_of_not_lt hj), laneOf_high _ (Nat.le_of_not_lt hj)]

/-! ## The third operand -/

theorem linearByte_of_is64 {s : State} (h : s.is64 = true) (g : Seg) (ea : Word64) (off : Nat) :
    linearByte s g ea off = segBase s g + ea + BitVec.ofNat 64 off := by
  rw [linearByte, if_pos h]

/-- Outside 64-bit mode every segment has a base, and addresses wrap at `2^32` (R126). -/
theorem linearByte_toNat_of_not_is64 {s : State} (h : s.is64 = false) (g : Seg) (ea : Word64) (off : Nat) :
    (linearByte s g ea off).toNat = ((s.readSeg g).base.toNat + ea.toNat + off) % 2 ^ 32 := by
  simp only [linearByte, segBase, h, Bool.false_eq_true, if_false, BitVec.toNat_setWidth, BitVec.toNat_add,
    BitVec.toNat_ofNat]
  omega

/-- Byte `n` of a lane of memory is the byte `n` above the lane's address: little-endian (R33). -/
theorem memLane_byte (s : State) (g : Seg) (ea : Word64) (j : Nat) {n : Nat} (hn : n < 8) :
    (memLane s g ea j).extractLsb' (8 * n) 8 = s.readLinear .read (linearByte s g ea (8 * j + n)) := by
  apply BitVec.eq_of_getLsbD_eq
  intro i hi
  simp only [memLane, BitVec.getLsbD_extractLsb', BitVec.getLsbD_append, hi]
  interval_cases n <;> interval_cases i <;> rfl

/-- Settles O43: a register operand is its lanes, a memory operand its bytes from the lane's address on, lowest first. -/
theorem memoryLanesLittleEndian : Obligations.MemoryLanesLittleEndian := by
  refine ⟨fun s o r rc j hsrc => ?_, fun s g ea off => ⟨fun h64 => ?_, fun h32 => ?_⟩,
    fun s o m j n hn => ⟨fun hmem => ?_, fun hbcst => ?_⟩⟩
  · obtain hsrc | hsrc := hsrc <;> simp only [src3Lane, hsrc]
  · exact ⟨linearByte_of_is64 h64 g ea off, by cases g <;> simp [segBase, h64]⟩
  · exact linearByte_toNat_of_not_is64 h32 g ea off
  · simp only [src3Lane, hmem, memLane_byte s _ _ j hn]
  · simpa only [src3Lane, hbcst, Nat.mul_zero, Nat.zero_add] using
      memLane_byte s (operandSeg o m) (effectiveAddress s o m true) 0 hn

end Sys2Proof.Machine
end

section
/-! PROOFS. The fields of a lane, and `FMA64` on NaNs, infinities and denormals (O44, O45, O52). -/

namespace Sys2Proof.Machine

/-! ## The fields of a lane (R80) -/

theorem fpFrac_lt (v : Lane) : fpFrac v < 2 ^ 52 := (v.extractLsb' 0 52).isLt

theorem fpExp_lt (v : Lane) : fpExp v < 2048 := (v.extractLsb' 52 11).isLt

/-- A lane is its sign, exponent field and fraction field. -/
theorem lane_ext {v w : Lane} (hsign : fpSign v = fpSign w) (hexp : fpExp v = fpExp w) (hfrac : fpFrac v = fpFrac w) :
    v = w := by
  have hexp : v.extractLsb' 52 11 = w.extractLsb' 52 11 := BitVec.eq_of_toNat_eq hexp
  have hfrac : v.extractLsb' 0 52 = w.extractLsb' 0 52 := BitVec.eq_of_toNat_eq hfrac
  apply BitVec.eq_of_getLsbD_eq
  intro i hi
  obtain h52 | h63 | rfl : i < 52 ∨ (52 ≤ i ∧ i < 63) ∨ i = 63 := by omega
  · simpa [BitVec.getLsbD_extractLsb', h52] using congrArg (·.getLsbD i) hfrac
  · have hi11 : i - 52 < 11 := by omega
    simpa [BitVec.getLsbD_extractLsb', hi11, Nat.add_sub_cancel' h63.1] using congrArg (·.getLsbD (i - 52)) hexp
  · exact hsign

@[simp] theorem fpSign_signed (neg : Bool) (v : Lane) : fpSign (signed neg v) = (neg || fpSign v) := by
  cases neg <;> simp [signed, fpSign, signBit]

@[simp] theorem fpExp_signed (neg : Bool) (v : Lane) : fpExp (signed neg v) = fpExp v := by
  have hsign : signBit.extractLsb' 52 11 = 0#11 := by decide
  cases neg <;> simp [signed, fpExp, BitVec.extractLsb'_or, hsign]

@[simp] theorem fpFrac_signed (neg : Bool) (v : Lane) : fpFrac (signed neg v) = fpFrac v := by
  have hsign : signBit.extractLsb' 0 52 = 0#52 := by decide
  cases neg <;> simp [signed, fpFrac, BitVec.extractLsb'_or, hsign]

@[simp] theorem fpSign_negOperand (neg : Bool) (c : Lane) : fpSign (negOperand neg c) = (fpSign c != neg) := by
  cases neg <;> simp [negOperand, fpSign, signBit]

@[simp] theorem fpExp_negOperand (neg : Bool) (c : Lane) : fpExp (negOperand neg c) = fpExp c := by
  have hsign : signBit.extractLsb' 52 11 = 0#11 := by decide
  cases neg <;> simp [negOperand, fpExp, BitVec.extractLsb'_xor, hsign]

@[simp] theorem fpFrac_negOperand (neg : Bool) (c : Lane) : fpFrac (negOperand neg c) = fpFrac c := by
  have hsign : signBit.extractLsb' 0 52 = 0#52 := by decide
  cases neg <;> simp [negOperand, fpFrac, BitVec.extractLsb'_xor, hsign]

@[simp] theorem fpInf_negOperand (neg : Bool) (c : Lane) : fpInf (negOperand neg c) = fpInf c := by simp [fpInf]

@[simp] theorem fpDenormal_negOperand (neg : Bool) (c : Lane) : fpDenormal (negOperand neg c) = fpDenormal c := by
  simp [fpDenormal]

/-- Bit 63 alone is the zero of the lane's sign. -/
theorem and_signBit (v : Lane) : v &&& signBit = signed (fpSign v) 0 := by
  apply BitVec.eq_of_getLsbD_eq
  intro i hi
  have hbit : signBit.getLsbD i = decide (i = 63) := by
    interval_cases i <;> rfl
  obtain rfl | h63 := eq_or_ne i 63
  · rw [BitVec.getLsbD_and, hbit, decide_eq_true rfl, Bool.and_true]
    exact ((fpSign_signed (fpSign v) 0).trans (Bool.or_false _)).symm
  · cases fpSign v <;> simp [signed, hbit, h63]

/-! ## Denormal operands counting as zeros (R95) -/

@[simp] theorem dazOperand_false (v : Lane) : dazOperand false v = v := rfl

theorem dazOperand_of_denormal {v : Lane} (h : fpDenormal v = true) : dazOperand true v = signed (fpSign v) 0 := by
  simp [dazOperand, h, and_signBit]

theorem dazOperand_of_not_denormal {daz : Bool} {v : Lane} (h : (daz && fpDenormal v) = false) : dazOperand daz v = v := by
  simp [dazOperand, h]

@[simp] theorem fpSign_dazOperand (daz : Bool) (v : Lane) : fpSign (dazOperand daz v) = fpSign v := by
  cases h : daz && fpDenormal v
  · rw [dazOperand_of_not_denormal h]
  · obtain ⟨rfl, hv⟩ := Bool.and_eq_true_iff.mp h
    have hzero : fpSign (0 : Lane) = false := rfl
    rw [dazOperand_of_denormal hv, fpSign_signed, hzero, Bool.or_false]

theorem fpExp_of_denormal {v : Lane} (h : fpDenormal v = true) : fpExp v = 0 := by
  simp only [fpDenormal, Bool.and_eq_true, decide_eq_true_eq] at h
  exact h.1

@[simp] theorem fpExp_dazOperand (daz : Bool) (v : Lane) : fpExp (dazOperand daz v) = fpExp v := by
  cases h : daz && fpDenormal v
  · rw [dazOperand_of_not_denormal h]
  · obtain ⟨rfl, hv⟩ := Bool.and_eq_true_iff.mp h
    rw [dazOperand_of_denormal hv, fpExp_signed, fpExp_of_denormal hv]
    rfl

@[simp] theorem fpInf_dazOperand (daz : Bool) (v : Lane) : fpInf (dazOperand daz v) = fpInf v := by
  cases h : daz && fpDenormal v
  · rw [dazOperand_of_not_denormal h]
  · simp [fpInf, fpExp_of_denormal (Bool.and_eq_true_iff.mp h).2]

@[simp] theorem fpNaN_dazOperand (daz : Bool) (v : Lane) : fpNaN (dazOperand daz v) = fpNaN v := by
  cases h : daz && fpDenormal v
  · rw [dazOperand_of_not_denormal h]
  · simp [fpNaN, fpExp_of_denormal (Bool.and_eq_true_iff.mp h).2]

@[simp] theorem fpZero_dazOperand (daz : Bool) (v : Lane) :
    fpZero (dazOperand daz v) = (fpZero v || (daz && fpDenormal v)) := by
  cases h : daz && fpDenormal v
  · rw [dazOperand_of_not_denormal h, Bool.or_false]
  · obtain ⟨rfl, hv⟩ := Bool.and_eq_true_iff.mp h
    rw [dazOperand_of_denormal hv, Bool.or_true, fpZero, fpExp_signed, fpFrac_signed]
    rfl

@[simp] theorem fpDenormal_dazOperand (daz : Bool) (v : Lane) : fpDenormal (dazOperand daz v) = (!daz && fpDenormal v) := by
  cases h : daz && fpDenormal v
  · rw [dazOperand_of_not_denormal h]
    cases daz
    · rfl
    · simpa using h
  · obtain ⟨rfl, hv⟩ := Bool.and_eq_true_iff.mp h
    rw [dazOperand_of_denormal hv, fpDenormal, fpExp_signed, fpFrac_signed]
    rfl

/-! ## FMA64 without a NaN (R86) -/

theorem fma64_of_no_nan {a b c : Lane} (h : (fpNaN a || fpNaN b || fpNaN c) = false) (izq : Bool) (rc : RoundControl)
    (daz ftz um om neg : Bool) : fma64 izq rc daz ftz um om a b c neg =
      fmaOrdered rc ftz um om (dazOperand daz a) (dazOperand daz b) (negOperand neg (dazOperand daz c)) := by
  rw [fma64, h]
  rfl

/-- `DE`, where some operand is denormal (R95). -/
def denormalFlag (a b c : Lane) : FpFlags := if fpDenormal a || fpDenormal b || fpDenormal c then flagDE else 0

theorem fmaOrdered_of_invalid {a b c : Lane} (h : invalidFma a b c = true) (rc : RoundControl) (ftz um om : Bool) :
    fmaOrdered rc ftz um om a b c = (qnanIndefinite, flagIE) := by
  rw [fmaOrdered, if_pos h]

section
variable {a b c : Lane} (hvalid : invalidFma a b c = false)
include hvalid

theorem fmaOrdered_of_inf_product (h : (fpInf a || fpInf b) = true) (rc : RoundControl) (ftz um om : Bool) :
    fmaOrdered rc ftz um om a b c = (signed (fpSign a != fpSign b) 0x7FF0000000000000#64, denormalFlag a b c) := by
  simp only [fmaOrdered, hvalid, h, Bool.false_eq_true, if_false, if_true, denormalFlag]

theorem fmaOrdered_of_inf_addend (h : (fpInf a || fpInf b) = false) (hc : fpInf c = true) (rc : RoundControl)
    (ftz um om : Bool) : fmaOrdered rc ftz um om a b c = (c, denormalFlag a b c) := by
  simp only [fmaOrdered, hvalid, h, hc, Bool.false_eq_true, if_false, if_true, denormalFlag]

/-- The exact sum of finite operands, as the sign, integer and scale that are rounded. -/
def exactOf (a b c : Lane) : Exact where
  neg := decide ((exactSum a b c).1 < 0)
  mant := (exactSum a b c).1.natAbs
  scale := (exactSum a b c).2

theorem fmaOrdered_of_zero_sum (h : (fpInf a || fpInf b) = false) (hc : fpInf c = false) (hsum : (exactSum a b c).1 = 0)
    (rc : RoundControl) (ftz um om : Bool) :
    fmaOrdered rc ftz um om a b c = (signed (zeroSumNeg rc a b c) 0, denormalFlag a b c) := by
  simp only [fmaOrdered, hvalid, h, hc, hsum, Bool.false_eq_true, if_false, if_true, denormalFlag]

theorem fmaOrdered_of_sum (h : (fpInf a || fpInf b) = false) (hc : fpInf c = false) (hsum : (exactSum a b c).1 ≠ 0)
    (rc : RoundControl) (ftz um om : Bool) : fmaOrdered rc ftz um om a b c =
      ((roundSum rc ftz um om (exactOf a b c)).1, denormalFlag a b c ||| (roundSum rc ftz um om (exactOf a b c)).2) := by
  simp only [fmaOrdered, hvalid, h, hc, hsum, Bool.false_eq_true, if_false, denormalFlag, exactOf]

end

/-! ## Rounding an exact sum, by the exponent it has after rounding (R90) -/

/-- The exponent after rounding to 53 bits, the exponent being unbounded. -/
def roundedExponent (rc : RoundControl) (x : Exact) : Int :=
  if (roundGrid rc x (x.exponent - 52)).1 = 2 ^ 53 then x.exponent + 1 else x.exponent

/-- The 53-bit integer of the rounded magnitude, a carry out of the top being shifted back. -/
def roundedSignificand (rc : RoundControl) (x : Exact) : Nat :=
  if (roundGrid rc x (x.exponent - 52)).1 = 2 ^ 53 then 2 ^ 52 else (roundGrid rc x (x.exponent - 52)).1

/-- The lane of a sum rounded in the normal range. -/
def normalResult (rc : RoundControl) (x : Exact) : Lane :=
  signed x.neg (BitVec.ofNat 64 ((roundedExponent rc x + 1023).toNat * 2 ^ 52 + (roundedSignificand rc x - 2 ^ 52)))

/-- The lane of a tiny sum, rounded to a multiple of the least denormal. -/
def tinyResult (rc : RoundControl) (x : Exact) : Lane := signed x.neg (BitVec.ofNat 64 (roundGrid rc x (-1074)).1)

/-- Rounding answers by the exponent after rounding: overflow, tiny, or a normal number. -/
theorem roundSum_eq (rc : RoundControl) (ftz um om : Bool) (x : Exact) : roundSum rc ftz um om x =
    if 1023 < roundedExponent rc x then (overflowResult rc x.neg, if om then flagOE ||| flagPE else flagOE)
    else if roundedExponent rc x < -1022 then
      if !um then (tinyResult rc x, flagUE)
      else if ftz then (signed x.neg 0, flagUE ||| flagPE)
      else (tinyResult rc x, if (roundGrid rc x (-1074)).2 then flagUE ||| flagPE else 0)
    else (normalResult rc x, if (roundGrid rc x (x.exponent - 52)).2 then flagPE else 0) := by
  simp only [roundSum, normalResult, tinyResult, roundedExponent, roundedSignificand]
  by_cases hcarry : (roundGrid rc x (x.exponent - 52)).1 = 2 ^ 53
  · simp only [if_pos hcarry]
  · simp only [if_neg hcarry]

section
variable {rc : RoundControl} {ftz um om : Bool} {x : Exact}

theorem roundSum_of_overflow (h : 1023 < roundedExponent rc x) :
    roundSum rc ftz um om x = (overflowResult rc x.neg, if om then flagOE ||| flagPE else flagOE) := by
  rw [roundSum_eq, if_pos h]

theorem roundSum_of_normal (hlow : -1022 ≤ roundedExponent rc x) (hhigh : roundedExponent rc x ≤ 1023) :
    roundSum rc ftz um om x = (normalResult rc x, if (roundGrid rc x (x.exponent - 52)).2 then flagPE else 0) := by
  rw [roundSum_eq, if_neg (by omega), if_neg (by omega)]

section
variable (h : roundedExponent rc x < -1022)
include h

theorem roundSum_of_tiny_unmasked : roundSum rc ftz false om x = (tinyResult rc x, flagUE) := by
  rw [roundSum_eq, if_neg (by omega), if_pos h]
  rfl

theorem roundSum_of_tiny_flushed : roundSum rc true true om x = (signed x.neg 0, flagUE ||| flagPE) := by
  rw [roundSum_eq, if_neg (by omega), if_pos h]
  rfl

theorem roundSum_of_tiny_masked : roundSum rc false true om x =
    (tinyResult rc x, if (roundGrid rc x (-1074)).2 then flagUE ||| flagPE else 0) := by
  rw [roundSum_eq, if_neg (by omega), if_pos h]
  rfl

end

end

/-! ## The flags of FMA64 -/

/-- Rounding raises post-computation flags alone (R136). -/
theorem roundSum_preFlags (rc : RoundControl) (ftz um om : Bool) (x : Exact) :
    (roundSum rc ftz um om x).2 &&& preFlags = 0 := by
  rw [roundSum_eq]
  split_ifs <;> dsimp only <;> decide

/-- Only overflow raises `OE` (R96). -/
theorem roundSum_flagOE {rc : RoundControl} {ftz um om : Bool} {x : Exact} (h : roundedExponent rc x ≤ 1023) :
    (roundSum rc ftz um om x).2 &&& flagOE = 0 := by
  rw [roundSum_eq, if_neg (by omega)]
  split_ifs <;> dsimp only <;> decide

/-- Only a tiny result raises `UE` (R97). -/
theorem roundSum_flagUE {rc : RoundControl} {ftz um om : Bool} {x : Exact} (h : -1022 ≤ roundedExponent rc x) :
    (roundSum rc ftz um om x).2 &&& flagUE = 0 := by
  rw [roundSum_eq, if_neg (by omega : ¬ roundedExponent rc x < -1022)]
  split_ifs <;> dsimp only <;> decide

/-- A valid operation raises `DE` for a denormal operand, and of the pre-computation flags no more. -/
theorem fmaOrdered_preFlags_of_valid {a b c : Lane} (hvalid : invalidFma a b c = false) (rc : RoundControl)
    (ftz um om : Bool) : (fmaOrdered rc ftz um om a b c).2 &&& preFlags = denormalFlag a b c := by
  have hde : denormalFlag a b c &&& preFlags = denormalFlag a b c := by
    unfold denormalFlag
    split <;> rfl
  cases h : fpInf a || fpInf b
  · cases hc : fpInf c
    · by_cases hsum : (exactSum a b c).1 = 0
      · rw [fmaOrdered_of_zero_sum hvalid h hc hsum, hde]
      · rw [fmaOrdered_of_sum hvalid h hc hsum, BitVec.and_comm, BitVec.and_or_distrib_left, BitVec.and_comm, hde,
          BitVec.and_comm, roundSum_preFlags]
        exact BitVec.or_zero
    · rw [fmaOrdered_of_inf_addend hvalid h hc, hde]
  · rw [fmaOrdered_of_inf_product hvalid h, hde]

/-- `DE` is raised exactly for a denormal operand of a valid operation (R95). -/
theorem fmaOrdered_flagDE (rc : RoundControl) (ftz um om : Bool) (a b c : Lane) :
    (fmaOrdered rc ftz um om a b c).2 &&& flagDE ≠ 0 ↔ (fpDenormal a || fpDenormal b || fpDenormal c) = true ∧
      (fmaOrdered rc ftz um om a b c).2 &&& flagIE = 0 := by
  cases hvalid : invalidFma a b c
  · have hpart (g : FpFlags) (hg : preFlags &&& g = g) :
        (fmaOrdered rc ftz um om a b c).2 &&& g = denormalFlag a b c &&& g := by
      rw [← fmaOrdered_preFlags_of_valid hvalid rc ftz um om, BitVec.and_assoc, hg]
    rw [hpart flagDE rfl, hpart flagIE rfl, denormalFlag]
    cases fpDenormal a || fpDenormal b || fpDenormal c <;> decide
  · rw [fmaOrdered_of_invalid hvalid]
    exact iff_of_false (by decide) fun h => absurd h.2 (by decide)

/-! ## NaN operands (R94) -/

/-- Settles O44: a NaN operand decides result and flags before any other rule. -/
theorem naNOperandPropagates : Obligations.NaNOperandPropagates := by
  intro rc daz ftz um om a b c neg hnan
  rw [fma64, if_pos hnan, nanResult, Bool.false_and, Bool.or_false]
  rfl

/-! ## Infinities (R93) -/

/-- An infinite lane is the infinity of its sign. -/
theorem eq_signed_inf {v : Lane} (h : fpInf v = true) : v = signed (fpSign v) 0x7FF0000000000000#64 := by
  simp only [fpInf, Bool.and_eq_true, decide_eq_true_eq] at h
  obtain ⟨hexp, hfrac⟩ := h
  refine lane_ext ?_ ?_ ?_
  · rw [fpSign_signed, show fpSign 0x7FF0000000000000#64 = false from rfl, Bool.or_false]
  · rw [fpExp_signed, hexp]
    rfl
  · rw [fpFrac_signed, hfrac]
    rfl

theorem signed_inf (neg : Bool) :
    signed neg 0x7FF0000000000000#64 = if neg then 0xFFF0000000000000#64 else 0x7FF0000000000000#64 := by
  cases neg <;> rfl

theorem denormalFlag_operands (daz neg : Bool) (a b c : Lane) :
    denormalFlag (dazOperand daz a) (dazOperand daz b) (negOperand neg (dazOperand daz c)) =
      if !daz && (fpDenormal a || fpDenormal b || fpDenormal c) then flagDE else 0 := by
  simp only [denormalFlag, fpDenormal_negOperand, fpDenormal_dazOperand, Bool.and_or_distrib_left]

/-- The invalid operations (R93) on operands past DAZ and negation. -/
theorem invalidFma_operands (daz neg : Bool) (a b c : Lane) :
    invalidFma (dazOperand daz a) (dazOperand daz b) (negOperand neg (dazOperand daz c)) =
      ((fpInf a && (fpZero b || (daz && fpDenormal b)) || (fpZero a || (daz && fpDenormal a)) && fpInf b) ||
        ((fpInf a || fpInf b) && fpInf c && ((fpSign a != fpSign b) != (fpSign c != neg)))) := by
  simp only [invalidFma, invalidProduct, fpInf_negOperand, fpInf_dazOperand, fpZero_dazOperand, fpSign_negOperand,
    fpSign_dazOperand]

/-- Settles O45: invalid operations first, then an infinite product, then an infinite addend. -/
theorem infinityOperands : Obligations.InfinityOperands := by
  intro izq rc daz ftz um om a b c neg hnan
  have hinvalid := invalidFma_operands daz neg a b c
  simp only [fma64_of_no_nan hnan]
  refine ⟨fun hbad => ?_, fun hbad hinf hc hsign => ?_, fun hbad hinf hc => ?_, fun hinf hc => ?_⟩
  · exact fmaOrdered_of_invalid (by rw [hinvalid, hbad, Bool.true_or]) ..
  · have hopposite : ((fpSign a != fpSign b) != (fpSign c != neg)) = true := bne_iff_ne.mpr hsign
    exact fmaOrdered_of_invalid (by rw [hinvalid, hinf, hc, hopposite, Bool.and_self, Bool.and_self, Bool.or_true]) ..
  · have hsame : (fpInf c && ((fpSign a != fpSign b) != (fpSign c != neg))) = false := by
      obtain hc | hc := hc
      · rw [hc, Bool.false_and]
      · rw [hc, bne_self_eq_false, Bool.and_false]
    rw [hbad, Bool.and_assoc, hsame, Bool.and_false, Bool.or_false] at hinvalid
    rw [fmaOrdered_of_inf_product hinvalid (by simpa using hinf), fpSign_dazOperand, fpSign_dazOperand, signed_inf,
      denormalFlag_operands]
  · obtain ⟨ha, hb⟩ := Bool.or_eq_false_iff.mp hinf
    simp only [ha, hb, Bool.false_and, Bool.and_false, Bool.or_false] at hinvalid
    have hcinf : fpInf (negOperand neg (dazOperand daz c)) = true := by simpa using hc
    have hresult := eq_signed_inf hcinf
    rw [fpSign_negOperand, fpSign_dazOperand, signed_inf] at hresult
    rw [fmaOrdered_of_inf_addend hinvalid (by simp [ha, hb]) hcinf, denormalFlag_operands, hresult]

/-! ## Denormals (R95) -/

/-- DAZ puts the zero of its sign in the place of a denormal. -/
theorem dazOperand_true (v : Lane) :
    dazOperand true v = if fpDenormal v then (if fpSign v then 0x8000000000000000#64 else 0) else v := by
  cases h : fpDenormal v
  · exact dazOperand_of_not_denormal (by simp [h])
  · rw [dazOperand_of_denormal h]
    cases fpSign v <;> rfl

/-- Settles O52: under DAZ the operands are the flushed ones, of which none is denormal. -/
theorem denormalOperands : Obligations.DenormalOperands := by
  intro izq rc ftz um om a b c neg hnan
  simp only [← dazOperand_true]
  have hflushed : (fpNaN (dazOperand true a) || fpNaN (dazOperand true b) || fpNaN (dazOperand true c)) = false := by
    simpa using hnan
  rw [fma64_of_no_nan hnan, fma64_of_no_nan hnan, fma64_of_no_nan hflushed]
  simp only [dazOperand_false]
  refine ⟨trivial, ?_, ?_⟩
  · by_contra hde
    simpa using (fmaOrdered_flagDE ..).mp hde
  · simpa using fmaOrdered_flagDE rc ftz um om a b (negOperand neg c)

end Sys2Proof.Machine
end

section
/-! PROOFS. Rounding to an integer, and to a multiple of a power of two, against exact rationals (R87). -/

namespace Sys2Proof.Machine

/-! ## Rounding to an integer -/

/-- `n` is the integer that `y`, the magnitude of a number of the sign `neg`, rounds to under `rc` (R87). -/
structure RoundsTo (rc : RoundControl) (neg : Bool) (y : ℚ) (n : ℕ) : Prop where
  near : |(n : ℚ) - y| < 1
  nearest : rc = 0b00#2 → |(n : ℚ) - y| ≤ 1 / 2
  even : rc = 0b00#2 → |(n : ℚ) - y| = 1 / 2 → Even n
  away : roundsAway rc neg = true → y ≤ n
  toward : rc ≠ 0b00#2 → roundsAway rc neg = false → (n : ℚ) ≤ y

/-- An integer rounds to itself. -/
theorem RoundsTo.refl (rc : RoundControl) (neg : Bool) (n : ℕ) : RoundsTo rc neg n n where
  near := by simp
  nearest _ := by simp
  even _ h := by norm_num at h
  away _ := le_rfl
  toward _ _ := le_rfl

/-- `roundsUp` by cases of the rounding control: past the middle or on it with an odd integer, or any remainder. -/
theorem roundsUp_iff (rc : RoundControl) (neg : Bool) (n rem d : ℕ) : roundsUp rc neg n rem d = true ↔
    rem ≠ 0 ∧ if rc = 0b00#2 then 2 ^ d < 2 * rem ∨ (2 * rem = 2 ^ d ∧ n % 2 = 1) else roundsAway rc neg = true := by
  by_cases hrem : rem = 0
  · simp [roundsUp, hrem]
  · obtain rfl | rfl | rfl | rfl : rc = 0b00#2 ∨ rc = 0b01#2 ∨ rc = 0b10#2 ∨ rc = 0b11#2 := by
      revert rc
      decide
    all_goals simp [roundsUp, hrem, roundsAway]

section
variable {rc : RoundControl} {neg : Bool} {n : ℕ} {f : ℚ} (h0 : 0 ≤ f) (h1 : f < 1)
include h0 h1

theorem RoundsTo.succ (hf : f ≠ 0)
    (hup : if rc = 0b00#2 then 1 / 2 < f ∨ (f = 1 / 2 ∧ n % 2 = 1) else roundsAway rc neg = true) :
    RoundsTo rc neg (n + f) (n + 1) := by
  have hpos : 0 < f := lt_of_le_of_ne h0 hf.symm
  have hdist : |((n + 1 : ℕ) : ℚ) - (n + f)| = 1 - f := by
    push_cast
    rw [abs_of_pos (by linarith)]
    ring
  refine ⟨?_, fun hrc => ?_, fun hrc htie => ?_, fun _ => ?_, fun hrc haway => ?_⟩
  · rw [hdist]
    linarith
  · rw [if_pos hrc] at hup
    rw [hdist]
    obtain hup | ⟨hup, -⟩ := hup <;> linarith
  · rw [if_pos hrc] at hup
    rw [hdist] at htie
    obtain hup | ⟨-, hodd⟩ := hup
    · linarith
    · exact Nat.even_iff.mpr (by omega)
  · push_cast
    linarith
  · rw [if_neg hrc, haway] at hup
    cases hup

theorem RoundsTo.floor
    (hdown : f = 0 ∨ ¬ if rc = 0b00#2 then 1 / 2 < f ∨ (f = 1 / 2 ∧ n % 2 = 1) else roundsAway rc neg = true) :
    RoundsTo rc neg (n + f) n := by
  obtain rfl | hdown := hdown
  · simpa using RoundsTo.refl rc neg n
  · have hdist : |(n : ℚ) - (n + f)| = f := by
      rw [abs_sub_comm, add_sub_cancel_left, abs_of_nonneg h0]
    refine ⟨by rwa [hdist], fun hrc => ?_, fun hrc htie => ?_, fun haway => ?_, fun _ _ => by linarith⟩
    · rw [if_pos hrc, not_or] at hdown
      rw [hdist]
      exact not_lt.mp hdown.1
    · rw [if_pos hrc, not_or] at hdown
      exact Nat.even_iff.mpr (Nat.mod_two_ne_one.mp fun hodd => hdown.2 ⟨hdist ▸ htie, hodd⟩)
    · have hrc : rc ≠ 0b00#2 := by
        rintro rfl
        simp [roundsAway] at haway
      rw [if_neg hrc] at hdown
      exact absurd haway hdown

end

/-- The quotient and remainder of `m / 2^d`, with `roundsUp`, round it. -/
theorem roundsTo_div (rc : RoundControl) (neg : Bool) (m d : ℕ) : RoundsTo rc neg ((m : ℚ) / 2 ^ d)
    (if roundsUp rc neg (m / 2 ^ d) (m % 2 ^ d) d then m / 2 ^ d + 1 else m / 2 ^ d) := by
  have hpow : (0 : ℚ) < 2 ^ d := by positivity
  have hrem : ((m % 2 ^ d : ℕ) : ℚ) < 2 ^ d := by exact_mod_cast Nat.mod_lt m (by positivity)
  have hsplit : (m : ℚ) / 2 ^ d = (m / 2 ^ d : ℕ) + ((m % 2 ^ d : ℕ) : ℚ) / 2 ^ d := by
    rw [div_eq_iff hpow.ne', add_mul, div_mul_cancel₀ _ hpow.ne', mul_comm]
    exact_mod_cast (Nat.div_add_mod m (2 ^ d)).symm
  have h0 : 0 ≤ ((m % 2 ^ d : ℕ) : ℚ) / 2 ^ d := by positivity
  have h1 : ((m % 2 ^ d : ℕ) : ℚ) / 2 ^ d < 1 := (div_lt_one hpow).mpr hrem
  have hzero : ((m % 2 ^ d : ℕ) : ℚ) / 2 ^ d = 0 ↔ m % 2 ^ d = 0 := by simp [div_eq_zero_iff, hpow.ne']
  have hhalf : 1 / 2 < ((m % 2 ^ d : ℕ) : ℚ) / 2 ^ d ↔ 2 ^ d < 2 * (m % 2 ^ d) := by
    rw [div_lt_div_iff₀ two_pos hpow, one_mul, mul_comm]
    exact_mod_cast Iff.rfl
  have htie : ((m % 2 ^ d : ℕ) : ℚ) / 2 ^ d = 1 / 2 ↔ 2 * (m % 2 ^ d) = 2 ^ d := by
    rw [div_eq_div_iff hpow.ne' two_ne_zero, one_mul, mul_comm]
    exact_mod_cast Iff.rfl
  rw [hsplit]
  have hup := roundsUp_iff rc neg (m / 2 ^ d) (m % 2 ^ d) d
  rw [← hhalf, ← htie, ne_eq, ← hzero] at hup
  split
  next h => exact .succ h0 h1 (hup.mp h).1 (hup.mp h).2
  next h => exact .floor h0 h1 (by rwa [hup, not_and_or, not_not] at h)

namespace RoundsTo
variable {rc : RoundControl} {neg : Bool} {y : ℚ} {n : ℕ}

/-- Two different integers are at least 1 apart, so one of them is at least as far from `y` as the other is from 1. -/
theorem one_le_dist_add {k : ℕ} (hk : k ≠ n) : 1 ≤ |(k : ℚ) - y| + |(n : ℚ) - y| := by
  have hapart : (1 : ℚ) ≤ |(k : ℚ) - n| := by
    have : (1 : ℤ) ≤ |(k : ℤ) - n| := Int.one_le_abs (by omega)
    exact_mod_cast this
  calc (1 : ℚ) ≤ |(k : ℚ) - n| := hapart
    _ = |((k : ℚ) - y) - (n - y)| := by rw [sub_sub_sub_cancel_right]
    _ ≤ |(k : ℚ) - y| + |(n : ℚ) - y| := abs_sub _ _

/-- To nearest, no integer is nearer. -/
theorem dist_le (h : RoundsTo 0b00#2 neg y n) (k : ℕ) : |(n : ℚ) - y| ≤ |(k : ℚ) - y| := by
  by_cases hk : k = n
  · rw [hk]
  · linarith [h.nearest rfl, one_le_dist_add (y := y) hk]

/-- To nearest, of two equally near integers it is the even one. -/
theorem even_of_tie (h : RoundsTo 0b00#2 neg y n) {k : ℕ} (hk : k ≠ n) (htie : |(k : ℚ) - y| = |(n : ℚ) - y|) :
    Even n :=
  h.even rfl (le_antisymm (h.nearest rfl) (by linarith [one_le_dist_add (y := y) hk]))

/-- Away from zero, it is the least integer not below. -/
theorem le_of_away (h : RoundsTo rc neg y n) {k : ℕ} (hk : y ≤ k) : n ≤ k := by
  have hnear := (abs_lt.mp h.near).2
  have : (n : ℚ) < k + 1 := by linarith
  exact Nat.lt_succ_iff.mp (by exact_mod_cast this)

/-- Toward zero, it is the greatest integer not above. -/
theorem le_of_toward (h : RoundsTo rc neg y n) {k : ℕ} (hk : (k : ℚ) ≤ y) : k ≤ n := by
  have hnear := (abs_lt.mp h.near).1
  have : (k : ℚ) < n + 1 := by linarith
  exact Nat.lt_succ_iff.mp (by exact_mod_cast this)

/-- A number below an even integer is rounded up to it past the middle, past the integer below it, or never. -/
theorem eq_top_iff (h : RoundsTo rc neg y n) {K : ℕ} (hK : Even K) (hy : y < K) : n = K ↔
    if rc = 0b00#2 then (K : ℚ) - 1 / 2 ≤ y else if roundsAway rc neg then (K : ℚ) - 1 < y else False := by
  obtain ⟨hlow, hhigh⟩ := abs_lt.mp h.near
  have hle : n ≤ K := Nat.lt_succ_iff.mp (by exact_mod_cast (by linarith : (n : ℚ) < K + 1))
  split
  next hrc =>
    have hnearest := h.nearest hrc
    refine ⟨fun hn => ?_, fun hmid => by_contra fun hn => ?_⟩
    · rw [hn] at hnearest
      linarith [(abs_le.mp hnearest).2]
    · have hbelow : (n : ℚ) + 1 ≤ K := by exact_mod_cast Nat.lt_of_le_of_ne hle hn
      have hdist := (abs_le.mp hnearest).1
      have hodd : n + 1 = K := by exact_mod_cast (by linarith : (n : ℚ) + 1 = K)
      have htie : |(n : ℚ) - y| = 1 / 2 := by
        rw [abs_of_nonpos (by linarith)]
        linarith
      exact absurd (hodd ▸ hK) (by simpa [Nat.even_add_one] using h.even hrc htie)
  next hrc =>
    split
    next haway =>
      refine ⟨fun hn => ?_, fun htop => le_antisymm hle (Nat.lt_succ_iff.mp ?_)⟩
      · rw [hn] at hhigh
        linarith
      · have hge := h.away haway
        exact_mod_cast (by linarith : (K : ℚ) < n + 1)
    next haway =>
      refine ⟨fun hn => ?_, False.elim⟩
      have hge := h.toward hrc (by simpa using haway)
      rw [hn] at hge
      linarith

/-- Rounded to an even integer, a number's half rounds to the half of it. -/
theorem half (h : RoundsTo rc neg y (2 * n)) : RoundsTo rc neg (y / 2) n := by
  have hdist : |(n : ℚ) - y / 2| < 1 / 2 := by
    have hnear := abs_lt.mp h.near
    push_cast at hnear
    exact abs_lt.mpr ⟨by linarith, by linarith⟩
  refine ⟨by linarith, fun _ => hdist.le, fun _ htie => absurd htie hdist.ne, fun haway => ?_, fun hrc haway => ?_⟩
  · have hge := h.away haway
    push_cast at hge
    linarith
  · have hle := h.toward hrc haway
    push_cast at hle
    linarith

end RoundsTo

/-! ## Rounding to a multiple of a power of two -/

/-- The magnitude of an exact number. -/
def Exact.magnitude (x : Exact) : ℚ := (x.mant : ℚ) * 2 ^ x.scale

/-- A number aligned to a scale not above its own is the same number. -/
theorem alignTo_mul {lo scale : ℤ} (h : lo ≤ scale) (m : ℕ) :
    (alignTo lo m scale : ℚ) * 2 ^ lo = (m : ℚ) * 2 ^ scale := by
  have hexp : ((scale - lo).toNat : ℤ) = scale - lo := Int.toNat_of_nonneg (by omega)
  rw [alignTo, Nat.cast_mul, Nat.cast_pow, Nat.cast_ofNat, mul_assoc, ← zpow_natCast, hexp, ← zpow_add₀ two_ne_zero,
    sub_add_cancel]

theorem roundGrid_of_le {x : Exact} {q : ℤ} (h : q ≤ x.scale) (rc : RoundControl) :
    roundGrid rc x q = (alignTo q x.mant x.scale, false) := by
  rw [roundGrid, if_pos h]

theorem roundGrid_of_lt {x : Exact} {q : ℤ} (h : x.scale < q) (rc : RoundControl) :
    roundGrid rc x q = (if roundsUp rc x.neg (x.mant / 2 ^ (q - x.scale).toNat) (x.mant % 2 ^ (q - x.scale).toNat)
        (q - x.scale).toNat then x.mant / 2 ^ (q - x.scale).toNat + 1 else x.mant / 2 ^ (q - x.scale).toNat,
      x.mant % 2 ^ (q - x.scale).toNat != 0) := by
  rw [roundGrid, if_neg (by omega)]

theorem magnitude_div_of_le {x : Exact} {q : ℤ} (h : q ≤ x.scale) :
    x.magnitude / 2 ^ q = (alignTo q x.mant x.scale : ℚ) := by
  rw [Exact.magnitude, ← alignTo_mul h, mul_div_cancel_right₀ _ (by positivity)]

theorem magnitude_div_of_lt {x : Exact} {q : ℤ} (h : x.scale < q) :
    x.magnitude / 2 ^ q = (x.mant : ℚ) / 2 ^ (q - x.scale).toNat := by
  have hexp : ((q - x.scale).toNat : ℤ) = q - x.scale := Int.toNat_of_nonneg (by omega)
  rw [Exact.magnitude, ← zpow_natCast, hexp, zpow_sub₀ two_ne_zero, div_div_eq_mul_div]

/-- `roundGrid` rounds the magnitude in units of the grid. -/
theorem roundGrid_roundsTo (rc : RoundControl) (x : Exact) (q : ℤ) :
    RoundsTo rc x.neg (x.magnitude / 2 ^ q) (roundGrid rc x q).1 := by
  obtain h | h := le_or_gt q x.scale
  · rw [roundGrid_of_le h, magnitude_div_of_le h]
    exact .refl ..
  · rw [roundGrid_of_lt h, magnitude_div_of_lt h]
    exact roundsTo_div ..

/-- Rounding is inexact exactly when it changes the magnitude (R98). -/
theorem roundGrid_inexact (rc : RoundControl) (x : Exact) (q : ℤ) :
    (roundGrid rc x q).2 = true ↔ ((roundGrid rc x q).1 : ℚ) * 2 ^ q ≠ x.magnitude := by
  rw [ne_eq, ← eq_div_iff (by positivity)]
  obtain h | h := le_or_gt q x.scale
  · simp [roundGrid_of_le h, magnitude_div_of_le h]
  · rw [roundGrid_of_lt h, magnitude_div_of_lt h, bne_iff_ne, not_iff_not, eq_div_iff (by positivity)]
    generalize (q - x.scale).toNat = d
    dsimp only
    have hdiv := Nat.div_add_mod x.mant (2 ^ d)
    have hmod := Nat.mod_lt x.mant (Nat.two_pow_pos d)
    refine ⟨fun hrem => ?_, fun heq => ?_⟩
    · have hdown : roundsUp rc x.neg (x.mant / 2 ^ d) (x.mant % 2 ^ d) d = false := by simp [roundsUp, hrem]
      rw [hdown, if_neg Bool.false_ne_true, mul_comm]
      exact_mod_cast (by omega)
    · have heq : (if roundsUp rc x.neg (x.mant / 2 ^ d) (x.mant % 2 ^ d) d then x.mant / 2 ^ d + 1
          else x.mant / 2 ^ d) * 2 ^ d = x.mant := by exact_mod_cast heq
      rw [← heq, Nat.mul_mod_left]

/-! ## The exponent, before and after rounding -/

theorem magnitude_lt (x : Exact) : x.magnitude < (2 : ℚ) ^ (x.exponent + 1) := by
  have hlog : (x.mant : ℚ) < ((2 ^ (x.mant.log2 + 1) : ℕ) : ℚ) := by exact_mod_cast Nat.lt_log2_self
  rw [Exact.exponent, add_right_comm, zpow_add₀ two_ne_zero, Exact.magnitude]
  gcongr
  exact_mod_cast hlog

/-- The magnitude in units of its 53rd bit has 53 bits. -/
theorem magnitude_div_lt (x : Exact) : x.magnitude / 2 ^ (x.exponent - 52) < ((2 ^ 53 : ℕ) : ℚ) := by
  rw [div_lt_iff₀ (by positivity)]
  refine lt_of_lt_of_eq (magnitude_lt x) ?_
  rw [zpow_sub₀ two_ne_zero, zpow_add₀ two_ne_zero]
  norm_num
  field_simp
  norm_num

section
variable {x : Exact} (hx : 0 < x.mant)
include hx

theorem two_zpow_exponent_le : (2 : ℚ) ^ x.exponent ≤ x.magnitude := by
  have hlog : ((2 ^ x.mant.log2 : ℕ) : ℚ) ≤ x.mant := by exact_mod_cast Nat.log2_self_le hx.ne'
  rw [Exact.exponent, zpow_add₀ two_ne_zero, zpow_natCast, Exact.magnitude]
  gcongr
  exact_mod_cast hlog

theorem le_magnitude_div : ((2 ^ 52 : ℕ) : ℚ) ≤ x.magnitude / 2 ^ (x.exponent - 52) := by
  rw [le_div_iff₀ (by positivity)]
  refine le_trans (le_of_eq ?_) (two_zpow_exponent_le hx)
  rw [zpow_sub₀ two_ne_zero]
  norm_num
  field_simp

theorem roundGrid_significand (rc : RoundControl) : 2 ^ 52 ≤ (roundGrid rc x (x.exponent - 52)).1 ∧
    (roundGrid rc x (x.exponent - 52)).1 ≤ 2 ^ 53 :=
  have hround := roundGrid_roundsTo rc x (x.exponent - 52)
  ⟨hround.le_of_toward (le_magnitude_div hx), hround.le_of_away (magnitude_div_lt x).le⟩

end

/-- Rounded under `rc` with unbounded exponent, the magnitude `v` of a number of the sign `neg` reaches `2^E`. -/
def Reaches (rc : RoundControl) (neg : Bool) (v : ℚ) (E : ℤ) : Prop :=
  if rc = 0b00#2 then (2 : ℚ) ^ E - 2 ^ (E - 54) ≤ v
  else if roundsAway rc neg then (2 : ℚ) ^ E - 2 ^ (E - 53) < v
  else (2 : ℚ) ^ E ≤ v

theorem Reaches.of_le {rc : RoundControl} {neg : Bool} {v : ℚ} {E : ℤ} (h : (2 : ℚ) ^ E ≤ v) : Reaches rc neg v E := by
  have h54 : (0 : ℚ) < 2 ^ (E - 54) := by positivity
  have h53 : (0 : ℚ) < 2 ^ (E - 53) := by positivity
  unfold Reaches
  split_ifs <;> linarith

/-- What reaches `2^E` exceeds the number before it. -/
theorem Reaches.lt {rc : RoundControl} {neg : Bool} {v : ℚ} {E : ℤ} (h : Reaches rc neg v E) :
    (2 : ℚ) ^ E - 2 ^ (E - 53) < v := by
  have h53 : (0 : ℚ) < 2 ^ (E - 53) := by positivity
  have h54 : (2 : ℚ) ^ (E - 54) = 2 ^ (E - 53) / 2 := by
    rw [show E - 54 = E - 53 - 1 by ring, zpow_sub_one₀ two_ne_zero, div_eq_mul_inv]
  unfold Reaches at h
  split_ifs at h <;> linarith

/-- The exponent after rounding is the greatest whose power of two the rounded magnitude reaches. -/
theorem le_roundedExponent_iff {x : Exact} (hx : 0 < x.mant) (rc : RoundControl) (E : ℤ) :
    E ≤ roundedExponent rc x ↔ Reaches rc x.neg x.magnitude E := by
  have hlow := two_zpow_exponent_le hx
  have hhigh := magnitude_lt x
  obtain h | h | h : E ≤ x.exponent ∨ x.exponent + 1 < E ∨ E = x.exponent + 1 := by omega
  · have hpow : (2 : ℚ) ^ E ≤ 2 ^ x.exponent := zpow_le_zpow_right₀ one_le_two h
    refine iff_of_true ?_ (.of_le (hpow.trans hlow))
    unfold roundedExponent
    split <;> omega
  · refine iff_of_false ?_ fun hreach => ?_
    · unfold roundedExponent
      split <;> omega
    · have hpow : (2 : ℚ) ^ (x.exponent + 1) ≤ 2 ^ (E - 1) := zpow_le_zpow_right₀ one_le_two (by omega)
      have hstep : (2 : ℚ) ^ E = 2 ^ (E - 1) * 2 := by rw [← zpow_add_one₀ two_ne_zero, sub_add_cancel]
      have h53 : (2 : ℚ) ^ (E - 53) ≤ 2 ^ (E - 1) := zpow_le_zpow_right₀ one_le_two (by omega)
      linarith [hreach.lt]
  · have hcarry : E ≤ roundedExponent rc x ↔ (roundGrid rc x (x.exponent - 52)).1 = 2 ^ 53 := by
      unfold roundedExponent
      split
      next hc => exact iff_of_true h.le hc
      next hc => exact iff_of_false (by omega) hc
    have hunit : (0 : ℚ) < 2 ^ (x.exponent - 52) := by positivity
    have htop : (2 : ℚ) ^ E = ((2 ^ 53 : ℕ) : ℚ) * 2 ^ (x.exponent - 52) := by
      rw [h, show x.exponent + 1 = 53 + (x.exponent - 52) by ring, zpow_add₀ two_ne_zero]
      norm_num
    have h54 : (2 : ℚ) ^ (E - 54) = 1 / 2 * 2 ^ (x.exponent - 52) := by
      rw [h, show x.exponent + 1 - 54 = -1 + (x.exponent - 52) by ring, zpow_add₀ two_ne_zero]
      norm_num
    have h53 : (2 : ℚ) ^ (E - 53) = 1 * 2 ^ (x.exponent - 52) := by
      rw [h, show x.exponent + 1 - 53 = x.exponent - 52 by ring, one_mul]
    have hnotop : ¬ (2 : ℚ) ^ E ≤ x.magnitude := by
      rw [h]
      exact not_le.mpr hhigh
    rw [hcarry, (roundGrid_roundsTo rc x _).eq_top_iff (by decide) (magnitude_div_lt x), Reaches, h54, h53]
    simp only [hnotop]
    rw [htop, ← sub_mul, ← sub_mul, le_div_iff₀ hunit, lt_div_iff₀ hunit]

end Sys2Proof.Machine
end

section
/-! PROOFS. `FMA64` on finite operands against exact rationals: the sign of a zero sum (O46), rounding (O47, O48), overflow
(O49), underflow (O50) and precision (O51). -/

namespace Sys2Proof.Machine

/-! ## The value of a finite lane (R80) -/

theorem fpMant_lt (v : Lane) : fpMant v < 2 ^ 53 := by
  have := fpFrac_lt v
  unfold fpMant
  split <;> omega

theorem neg_1074_le_fpScale (v : Lane) : -1074 ≤ fpScale v := by
  unfold fpScale
  split <;> omega

theorem fpScale_le {v : Lane} (h : fpFinite v = true) : fpScale v ≤ 971 := by
  have hexp : fpExp v ≠ 2047 := by simpa [fpFinite] using h
  have := fpExp_lt v
  unfold fpScale
  split <;> omega

theorem abs_fpValue (v : Lane) : |fpValue v| = (fpMant v : ℚ) * 2 ^ fpScale v := by
  have hnonneg : (0 : ℚ) ≤ (fpMant v : ℚ) * 2 ^ fpScale v := by positivity
  unfold fpValue
  split
  · rw [mul_assoc, neg_one_mul, abs_neg, abs_of_nonneg hnonneg]
  · rw [one_mul, abs_of_nonneg hnonneg]

/-- A value is its magnitude with its sign. -/
theorem fpValue_eq_abs (v : Lane) : fpValue v = if fpSign v then -|fpValue v| else |fpValue v| := by
  rw [abs_fpValue, fpValue]
  split <;> ring

theorem fpValue_eq_zero_iff (v : Lane) : fpValue v = 0 ↔ fpMant v = 0 := by
  rw [← abs_eq_zero, abs_fpValue, mul_eq_zero, Nat.cast_eq_zero, or_iff_left (by positivity)]

/-- No finite lane is greater than `MAXF`. -/
theorem abs_fpValue_le {v : Lane} (h : fpFinite v = true) : |fpValue v| ≤ 2 ^ (1024 : ℤ) - 2 ^ (1024 - 53 : ℤ) := by
  have hmant : (fpMant v : ℚ) ≤ 2 ^ 53 - 1 := by
    have hlt : (fpMant v : ℚ) + 1 ≤ (2 ^ 53 : ℕ) := by exact_mod_cast fpMant_lt v
    push_cast at hlt
    linarith
  have hscale : (2 : ℚ) ^ fpScale v ≤ 2 ^ (1024 - 53 : ℤ) := zpow_le_zpow_right₀ one_le_two (fpScale_le h)
  have htop : (2 : ℚ) ^ (1024 : ℤ) = 2 ^ 53 * 2 ^ (1024 - 53 : ℤ) := by
    rw [← zpow_natCast, ← zpow_add₀ two_ne_zero]
    rfl
  calc |fpValue v| = (fpMant v : ℚ) * 2 ^ fpScale v := abs_fpValue v
    _ ≤ (2 ^ 53 - 1) * 2 ^ (1024 - 53 : ℤ) := mul_le_mul hmant hscale (by positivity) (by norm_num)
    _ = 2 ^ (1024 : ℤ) - 2 ^ (1024 - 53 : ℤ) := by rw [sub_mul, one_mul, htop]

theorem fpMant_negOperand (neg : Bool) (c : Lane) : fpMant (negOperand neg c) = fpMant c := by simp [fpMant]

theorem fpScale_negOperand (neg : Bool) (c : Lane) : fpScale (negOperand neg c) = fpScale c := by simp [fpScale]

theorem fpValue_negOperand (neg : Bool) (c : Lane) :
    fpValue (negOperand neg c) = if neg then -fpValue c else fpValue c := by
  rw [fpValue, fpValue, fpMant_negOperand, fpScale_negOperand, fpSign_negOperand]
  cases neg <;> cases fpSign c <;> simp

/-! ## The lane of given fields -/

section
variable {E F : ℕ} (hE : E < 2048) (hF : F < 2 ^ 52) (neg : Bool)
include hE hF

theorem fpSign_encoded : fpSign (signed neg (BitVec.ofNat 64 (E * 2 ^ 52 + F))) = neg := by
  have hbit : fpSign (BitVec.ofNat 64 (E * 2 ^ 52 + F)) = false := by
    rw [fpSign, BitVec.getLsbD_ofNat, Nat.testBit_lt_two_pow (by omega), Bool.and_false]
  rw [fpSign_signed, hbit, Bool.or_false]

theorem fpExp_encoded : fpExp (signed neg (BitVec.ofNat 64 (E * 2 ^ 52 + F))) = E := by
  rw [fpExp_signed, fpExp, BitVec.extractLsb'_toNat, BitVec.toNat_ofNat, Nat.shiftRight_eq_div_pow]
  omega

end

theorem fpFrac_encoded {F : ℕ} (hF : F < 2 ^ 52) (E : ℕ) (neg : Bool) :
     fpFrac (signed neg (BitVec.ofNat 64 (E * 2 ^ 52 + F))) = F := by
  rw [fpFrac_signed, fpFrac, BitVec.extractLsb'_toNat, BitVec.toNat_ofNat, Nat.shiftRight_eq_div_pow]
  omega

theorem getLsbD_zero_signed_ofNat {m : ℕ} (h : Even m) (neg : Bool) :
    (signed neg (BitVec.ofNat 64 m)).getLsbD 0 = false := by
  have hbit : (BitVec.ofNat 64 m).getLsbD 0 = false := by
    rw [BitVec.getLsbD_ofNat, Nat.testBit_zero, Nat.even_iff.mp h]
    rfl
  cases neg
  · exact hbit
  · rw [signed, if_pos rfl, BitVec.getLsbD_or, hbit]
    rfl

/-- The finite lane of a sign and a magnitude. -/
structure FiniteLane (v : Lane) (neg : Bool) (m : ℚ) : Prop where
  finite : fpFinite v = true
  sign : fpSign v = neg
  abs_value : |fpValue v| = m

/-- The lane of biased exponent `e + 1023` and 53-bit integer `n`. -/
theorem finiteLane_normal {e : ℤ} {n : ℕ} (hlow : -1022 ≤ e) (hhigh : e ≤ 1023) (hn : 2 ^ 52 ≤ n) (hn' : n < 2 ^ 53)
    (neg : Bool) : FiniteLane (signed neg (BitVec.ofNat 64 ((e + 1023).toNat * 2 ^ 52 + (n - 2 ^ 52)))) neg
      ((n : ℚ) * 2 ^ (e - 52)) := by
  have hE : (e + 1023).toNat < 2048 := by omega
  have hF : n - 2 ^ 52 < 2 ^ 52 := by omega
  have hexp := fpExp_encoded hE hF neg
  have hmant : fpMant (signed neg (BitVec.ofNat 64 ((e + 1023).toNat * 2 ^ 52 + (n - 2 ^ 52)))) = n := by
    rw [fpMant, hexp, fpFrac_encoded hF, if_neg (by omega)]
    omega
  have hscale : fpScale (signed neg (BitVec.ofNat 64 ((e + 1023).toNat * 2 ^ 52 + (n - 2 ^ 52)))) = e - 52 := by
    rw [fpScale, hexp, if_neg (by omega)]
    omega
  refine ⟨?_, fpSign_encoded hE hF neg, by rw [abs_fpValue, hmant, hscale]⟩
  rw [fpFinite, hexp, bne_iff_ne]
  omega

/-- The lane of the integer `m`, up to `2^52`, in units of the least denormal. -/
theorem finiteLane_denormal {m : ℕ} (hm : m ≤ 2 ^ 52) (neg : Bool) :
    FiniteLane (signed neg (BitVec.ofNat 64 m)) neg ((m : ℚ) * 2 ^ (-1074 : ℤ)) := by
  obtain hlt | rfl := Nat.lt_or_eq_of_le hm
  · have hexp := fpExp_encoded (E := 0) (by decide) hlt neg
    have hfrac := fpFrac_encoded hlt 0 neg
    have hsign := fpSign_encoded (E := 0) (by decide) hlt neg
    rw [Nat.zero_mul, Nat.zero_add] at hexp hfrac hsign
    refine ⟨by rw [fpFinite, hexp]; rfl, hsign, ?_⟩
    rw [abs_fpValue, fpMant, fpScale, if_pos hexp, if_pos hexp, hfrac]
  · exact finiteLane_normal (e := -1022) (n := 2 ^ 52) (by decide) (by decide) le_rfl (by decide) neg

/-! ## What rounding an exact sum answers (R90) -/

/-- The least exponent of a bit of the result: 52 below the leading one, but not below that of the least denormal. -/
def Exact.grid (x : Exact) : ℤ := max (x.exponent - 52) (-1074)

/-- `r` is the lane of the sign of `x` whose magnitude is that of `x`, rounded to `n` units of the grid. -/
structure CorrectlyRounded (rc : RoundControl) (x : Exact) (r : Lane) (n : ℕ) : Prop where
  rounds : RoundsTo rc x.neg (x.magnitude / 2 ^ x.grid) n
  lane : FiniteLane r x.neg ((n : ℚ) * 2 ^ x.grid)
  even : Even n → r.getLsbD 0 = false

theorem exponent_le_roundedExponent (rc : RoundControl) (x : Exact) : x.exponent ≤ roundedExponent rc x := by
  unfold roundedExponent
  split <;> omega

section
variable {rc : RoundControl} {x : Exact} (htiny : roundedExponent rc x < -1022)
include htiny

/-- A tiny sum rounds to at most `MINN`. -/
theorem finiteLane_tinyResult :
    FiniteLane (tinyResult rc x) x.neg (((roundGrid rc x (-1074)).1 : ℚ) * 2 ^ (-1074 : ℤ)) := by
  have hexp := (exponent_le_roundedExponent rc x).trans_lt htiny
  refine finiteLane_denormal ((roundGrid_roundsTo rc x (-1074)).le_of_away ?_) x.neg
  rw [div_le_iff₀ (by positivity)]
  calc x.magnitude ≤ 2 ^ (x.exponent + 1) := (magnitude_lt x).le
    _ ≤ 2 ^ (-1022 : ℤ) := zpow_le_zpow_right₀ one_le_two (by omega)
    _ = ((2 ^ 52 : ℕ) : ℚ) * 2 ^ (-1074 : ℤ) := by
      rw [show (-1022 : ℤ) = 52 + -1074 by norm_num, zpow_add₀ two_ne_zero]
      norm_num

theorem tinyResult_correct : CorrectlyRounded rc x (tinyResult rc x) (roundGrid rc x (-1074)).1 := by
  have hexp := (exponent_le_roundedExponent rc x).trans_lt htiny
  have hgrid : x.grid = -1074 := max_eq_right (by omega)
  refine ⟨?_, ?_, (getLsbD_zero_signed_ofNat · _)⟩
  · rw [hgrid]
    exact roundGrid_roundsTo rc x (-1074)
  · rw [hgrid]
    exact finiteLane_tinyResult htiny

end

section
variable {rc : RoundControl} {x : Exact} (hx : 0 < x.mant)
include hx

/-- A carry out of the top shifts the 53-bit integer back. -/
theorem roundedSignificand_bounds : 2 ^ 52 ≤ roundedSignificand rc x ∧ roundedSignificand rc x < 2 ^ 53 := by
  obtain ⟨hge, hle⟩ := roundGrid_significand hx rc
  unfold roundedSignificand
  split <;> omega

theorem normalResult_even (heven : Even (roundGrid rc x (x.exponent - 52)).1) :
    (normalResult rc x).getLsbD 0 = false := by
  have hsignificand : Even (roundedSignificand rc x) := by
    unfold roundedSignificand
    split
    · decide
    · exact heven
  obtain ⟨hge, -⟩ := roundedSignificand_bounds hx (rc := rc)
  refine getLsbD_zero_signed_ofNat ?_ _
  rw [Nat.even_iff] at hsignificand ⊢
  omega

section
variable (hlow : -1022 ≤ roundedExponent rc x) (hhigh : roundedExponent rc x ≤ 1023)
include hlow hhigh

/-- In the normal range the result is the sum rounded to 53 bits. -/
theorem finiteLane_normalResult : FiniteLane (normalResult rc x) x.neg
    (((roundGrid rc x (x.exponent - 52)).1 : ℚ) * 2 ^ (x.exponent - 52)) := by
  have hvalue : (roundedSignificand rc x : ℚ) * 2 ^ (roundedExponent rc x - 52) =
      ((roundGrid rc x (x.exponent - 52)).1 : ℚ) * 2 ^ (x.exponent - 52) := by
    unfold roundedSignificand roundedExponent
    split
    next hcarry =>
      rw [hcarry, show x.exponent + 1 - 52 = x.exponent - 52 + 1 by ring, zpow_add_one₀ two_ne_zero]
      push_cast
      ring
    next => rfl
  obtain ⟨hge, hlt⟩ := roundedSignificand_bounds hx (rc := rc)
  rw [← hvalue]
  exact finiteLane_normal hlow hhigh hge hlt x.neg

/-- In the normal range, a carry into it from below included, the sum is correctly rounded. -/
theorem normalResult_correct : ∃ n, CorrectlyRounded rc x (normalResult rc x) n := by
  have hlane := finiteLane_normalResult hx hlow hhigh
  have heven := normalResult_even hx (rc := rc)
  have hround := roundGrid_roundsTo rc x (x.exponent - 52)
  obtain hnormal | hbelow := le_or_gt (-1022) x.exponent
  · have hgrid : x.grid = x.exponent - 52 := max_eq_left (by omega)
    exact ⟨_, by rw [hgrid]; exact hround, by rw [hgrid]; exact hlane, heven⟩
  · have hcarry : (roundGrid rc x (x.exponent - 52)).1 = 2 ^ 53 := by
      by_contra hne
      rw [roundedExponent, if_neg hne] at hlow
      omega
    have hexp : x.exponent = -1023 := by
      rw [roundedExponent, if_pos hcarry] at hlow
      omega
    have hgrid : x.grid = -1074 := max_eq_right (by omega)
    have hunit : (2 : ℚ) ^ (-1074 : ℤ) = 2 ^ (x.exponent - 52) * 2 := by
      rw [hexp, ← zpow_add_one₀ two_ne_zero]
      norm_num
    have hvalue : ((2 ^ 52 : ℕ) : ℚ) * (2 ^ (x.exponent - 52) * 2) = ((2 ^ 53 : ℕ) : ℚ) * 2 ^ (x.exponent - 52) := by
      push_cast
      ring
    rw [hcarry] at hround hlane heven
    refine ⟨2 ^ 52, ?_, ?_, fun _ => heven (by decide)⟩
    · rw [hgrid, hunit, ← div_div]
      exact RoundsTo.half hround
    · rw [hgrid, hunit, hvalue]
      exact hlane

end

/-- Without overflow, and a tiny sum being masked and not flushed, the sum is correctly rounded. -/
theorem roundSum_correct {ftz um : Bool} (hover : roundedExponent rc x ≤ 1023)
    (hunder : -1022 ≤ roundedExponent rc x ∨ (um = true ∧ ftz = false)) (om : Bool) :
    ∃ n, CorrectlyRounded rc x (roundSum rc ftz um om x).1 n := by
  by_cases htiny : roundedExponent rc x < -1022
  · obtain ⟨rfl, rfl⟩ : um = true ∧ ftz = false := by
      obtain h | h := hunder
      · omega
      · exact h
    rw [roundSum_of_tiny_masked htiny]
    exact ⟨_, tinyResult_correct htiny⟩
  · rw [roundSum_of_normal (by omega) hover]
    exact normalResult_correct hx (by omega) hover

/-- There `PE` is raised exactly for a magnitude that rounding changed (R98). -/
theorem roundSum_flagPE {ftz um : Bool} (hover : roundedExponent rc x ≤ 1023)
    (hunder : -1022 ≤ roundedExponent rc x ∨ (um = true ∧ ftz = false)) (om : Bool) :
    (roundSum rc ftz um om x).2 &&& flagPE ≠ 0 ↔ |fpValue (roundSum rc ftz um om x).1| ≠ x.magnitude := by
  by_cases htiny : roundedExponent rc x < -1022
  · obtain ⟨rfl, rfl⟩ : um = true ∧ ftz = false := by
      obtain h | h := hunder
      · omega
      · exact h
    rw [roundSum_of_tiny_masked htiny, (finiteLane_tinyResult htiny).abs_value, ← roundGrid_inexact]
    cases (roundGrid rc x (-1074)).2 <;> simp [flagPE, flagUE]
  · rw [roundSum_of_normal (by omega) hover, (finiteLane_normalResult hx (by omega) hover).abs_value, ← roundGrid_inexact]
    cases (roundGrid rc x (x.exponent - 52)).2 <;> simp [flagPE]

end

/-! ## The doubles about a sum -/

/-- The magnitude of a finite double is a multiple of the grid of `x`, or lies below one that `x` does not lie below. -/
theorem exists_grid_multiple {x : Exact} (hx : 0 < x.mant) (w : Lane) : ∃ k : ℕ,
    |fpValue w| = (k : ℚ) * 2 ^ x.grid ∨ (|fpValue w| < (k : ℚ) * 2 ^ x.grid ∧ (k : ℚ) * 2 ^ x.grid ≤ x.magnitude) := by
  rw [abs_fpValue]
  obtain h | h := le_or_gt x.grid (fpScale w)
  · exact ⟨_, .inl (alignTo_mul h (fpMant w)).symm⟩
  · have hgrid : x.grid = x.exponent - 52 := by
      have := neg_1074_le_fpScale w
      unfold Exact.grid at h ⊢
      omega
    have htop : ((2 ^ 52 : ℕ) : ℚ) * 2 ^ x.grid ≤ x.magnitude := by
      rw [hgrid, ← le_div_iff₀ (by positivity)]
      exact le_magnitude_div hx
    refine ⟨2 ^ 52, .inr ⟨?_, htop⟩⟩
    calc (fpMant w : ℚ) * 2 ^ fpScale w < ((2 ^ 53 : ℕ) : ℚ) * 2 ^ fpScale w := by
          gcongr
          exact fpMant_lt w
      _ = ((2 ^ 52 : ℕ) : ℚ) * 2 ^ (fpScale w + 1) := by
          rw [zpow_add_one₀ two_ne_zero]
          push_cast
          ring
      _ ≤ ((2 ^ 52 : ℕ) : ℚ) * 2 ^ x.grid := by
          gcongr
          · exact one_le_two
          · omega

namespace CorrectlyRounded
variable {rc : RoundControl} {x : Exact} {r : Lane} {n : ℕ}

theorem dist_of_le {y v : ℚ} (h : y ≤ v) : |y - v| = v - y := by rw [abs_sub_comm, abs_of_nonneg (sub_nonneg.mpr h)]

/-- Distances from the magnitude, in units of the grid. -/
theorem dist_eq (x : Exact) (k : ℕ) :
    |(k : ℚ) * 2 ^ x.grid - x.magnitude| = |(k : ℚ) - x.magnitude / 2 ^ x.grid| * 2 ^ x.grid := by
  have hunit : (0 : ℚ) < 2 ^ x.grid := by positivity
  rw [← abs_of_pos hunit, ← abs_mul, sub_mul, abs_of_pos hunit, div_mul_cancel₀ _ hunit.ne']

/-- To nearest, no double has a magnitude nearer that of the sum. -/
theorem nearest (h : CorrectlyRounded 0b00#2 x r n) (hx : 0 < x.mant) (w : Lane) :
    |(|fpValue r|) - x.magnitude| ≤ |(|fpValue w|) - x.magnitude| := by
  have hmultiple (k : ℕ) : |(n : ℚ) * 2 ^ x.grid - x.magnitude| ≤ |(k : ℚ) * 2 ^ x.grid - x.magnitude| := by
    rw [dist_eq, dist_eq]
    exact mul_le_mul_of_nonneg_right (h.rounds.dist_le k) (by positivity)
  rw [h.lane.abs_value]
  obtain ⟨k, hk | ⟨hlt, hle⟩⟩ := exists_grid_multiple hx w
  · rw [hk]
    exact hmultiple k
  · refine (hmultiple k).trans ?_
    rw [dist_of_le hle, dist_of_le (hlt.le.trans hle)]
    linarith

/-- To nearest, where another magnitude is equally near, the last bit is 0. -/
theorem even_of_tie (h : CorrectlyRounded 0b00#2 x r n) (hx : 0 < x.mant) {w : Lane} (hne : |fpValue w| ≠ |fpValue r|)
    (htie : |(|fpValue w|) - x.magnitude| = |(|fpValue r|) - x.magnitude|) : r.getLsbD 0 = false := by
  have hunit : (0 : ℚ) < 2 ^ x.grid := by positivity
  rw [h.lane.abs_value] at hne htie
  obtain ⟨k, hk | ⟨hlt, hle⟩⟩ := exists_grid_multiple hx w
  · rw [hk] at hne htie
    rw [dist_eq, dist_eq, mul_left_inj' hunit.ne'] at htie
    exact h.even (h.rounds.even_of_tie (fun hkn => hne (by rw [hkn])) htie)
  · have hdist := h.rounds.dist_le k
    rw [← mul_le_mul_iff_left₀ hunit, ← dist_eq, ← dist_eq, ← htie, dist_of_le hle, dist_of_le (hlt.le.trans hle)] at hdist
    linarith

/-- Away from zero, the magnitude is the least of a double that is not below that of the sum. -/
theorem away (h : CorrectlyRounded rc x r n) (hx : 0 < x.mant) (haway : roundsAway rc x.neg = true) :
    x.magnitude ≤ |fpValue r| ∧ ∀ w, x.magnitude ≤ |fpValue w| → |fpValue r| ≤ |fpValue w| := by
  have hunit : (0 : ℚ) < 2 ^ x.grid := by positivity
  rw [h.lane.abs_value]
  refine ⟨(div_le_iff₀ hunit).mp (h.rounds.away haway), fun w hw => ?_⟩
  obtain ⟨k, hk | ⟨hlt, hle⟩⟩ := exists_grid_multiple hx w
  · rw [hk] at hw ⊢
    gcongr
    exact h.rounds.le_of_away ((div_le_iff₀ hunit).mpr hw)
  · linarith

/-- Toward zero, the magnitude is the greatest of a double that is not above that of the sum. -/
theorem toward (h : CorrectlyRounded rc x r n) (hx : 0 < x.mant) (hrc : rc ≠ 0b00#2) (haway : roundsAway rc x.neg = false) :
    |fpValue r| ≤ x.magnitude ∧ ∀ w, |fpValue w| ≤ x.magnitude → |fpValue w| ≤ |fpValue r| := by
  have hunit : (0 : ℚ) < 2 ^ x.grid := by positivity
  have hmultiple {k : ℕ} (hk : (k : ℚ) * 2 ^ x.grid ≤ x.magnitude) : (k : ℚ) * 2 ^ x.grid ≤ (n : ℚ) * 2 ^ x.grid := by
    gcongr
    exact h.rounds.le_of_toward ((le_div_iff₀ hunit).mpr hk)
  rw [h.lane.abs_value]
  refine ⟨(le_div_iff₀ hunit).mp (h.rounds.toward hrc haway), fun w hw => ?_⟩
  obtain ⟨k, hk | ⟨hlt, hle⟩⟩ := exists_grid_multiple hx w
  · rw [hk] at hw ⊢
    exact hmultiple hw
  · exact hlt.le.trans (hmultiple hle)

end CorrectlyRounded

/-! ## The exact sum (R86 step 7) -/

theorem signedInt_mul (neg : Bool) (m : ℕ) (u : ℚ) :
    (signedInt neg m : ℚ) * u = (if neg then -1 else 1) * ((m : ℚ) * u) := by
  cases neg <;> simp [signedInt]

/-- The integer of `exactSum` at its scale is the sum of the rationals. -/
theorem exactSum_value (a b c : Lane) :
    ((exactSum a b c).1 : ℚ) * 2 ^ (exactSum a b c).2 = fpValue a * fpValue b + fpValue c := by
  simp only [exactSum]
  rw [Int.cast_add, add_mul, signedInt_mul, signedInt_mul, alignTo_mul (min_le_left _ _), alignTo_mul (min_le_right _ _),
    zpow_add₀ two_ne_zero, Nat.cast_mul]
  unfold fpValue
  cases fpSign a <;> cases fpSign b <;> simp <;> ring

theorem exactFma_eq (a b c : Lane) (neg : Bool) :
    exactFma a b c neg = fpValue a * fpValue b + fpValue (negOperand neg c) := by
  rw [exactFma, fpValue_negOperand]

section
variable (a b c : Lane) (neg : Bool)

/-- The exact sum as the number that is rounded, the addend negated in an odd lane. -/
def finiteSum : Exact := exactOf a b (negOperand neg c)

theorem exactFma_eq_scaled : exactFma a b c neg =
    ((exactSum a b (negOperand neg c)).1 : ℚ) * 2 ^ (exactSum a b (negOperand neg c)).2 := by
  rw [exactFma_eq, exactSum_value]

theorem finiteSum_neg : (finiteSum a b c neg).neg = decide (exactFma a b c neg < 0) := by
  refine decide_eq_decide.mpr ?_
  have hunit : (0 : ℚ) < 2 ^ (exactSum a b (negOperand neg c)).2 := by positivity
  rw [exactFma_eq_scaled, mul_neg_iff, and_iff_left hunit, or_iff_right fun h => hunit.not_gt h.2, Int.cast_lt_zero]

theorem finiteSum_magnitude : (finiteSum a b c neg).magnitude = |exactFma a b c neg| := by
  have hunit : (0 : ℚ) < 2 ^ (exactSum a b (negOperand neg c)).2 := by positivity
  rw [exactFma_eq_scaled, abs_mul, abs_of_pos hunit, ← Int.cast_abs, Int.abs_eq_natAbs]
  rfl

theorem exactSum_eq_zero_iff : (exactSum a b (negOperand neg c)).1 = 0 ↔ exactFma a b c neg = 0 := by
  have hunit : (2 : ℚ) ^ (exactSum a b (negOperand neg c)).2 ≠ 0 := by positivity
  rw [exactFma_eq_scaled, mul_eq_zero, or_iff_left hunit, Int.cast_eq_zero]

theorem finiteSum_mant_pos (h : exactFma a b c neg ≠ 0) : 0 < (finiteSum a b c neg).mant :=
  Int.natAbs_pos.mpr ((exactSum_eq_zero_iff a b c neg).not.mpr h)

end

/-! ## FMA64 on finite operands -/

theorem fpInf_of_finite {v : Lane} (h : fpFinite v = true) : fpInf v = false := by
  have hexp : fpExp v ≠ 2047 := by simpa [fpFinite] using h
  simp [fpInf, hexp]

theorem fpNaN_of_finite {v : Lane} (h : fpFinite v = true) : fpNaN v = false := by
  have hexp : fpExp v ≠ 2047 := by simpa [fpFinite] using h
  simp [fpNaN, hexp]

theorem invalidFma_of_finite {a b : Lane} (ha : fpFinite a = true) (hb : fpFinite b = true) (c : Lane) (neg : Bool) :
    invalidFma a b (negOperand neg c) = false := by
  simp [invalidFma, invalidProduct, fpInf_of_finite ha, fpInf_of_finite hb]

section
variable {a b c : Lane} (ha : fpFinite a = true) (hb : fpFinite b = true) (hc : fpFinite c = true)
  {izq : Bool} {rc : RoundControl} {ftz um om neg : Bool}
include ha hb hc

theorem fma64_of_finite : fma64 izq rc false ftz um om a b c neg = fmaOrdered rc ftz um om a b (negOperand neg c) :=
  fma64_of_no_nan (by rw [fpNaN_of_finite ha, fpNaN_of_finite hb, fpNaN_of_finite hc]; rfl) ..

theorem fma64_of_zero_sum (h : exactFma a b c neg = 0) : fma64 izq rc false ftz um om a b c neg =
    (signed (zeroSumNeg rc a b (negOperand neg c)) 0, denormalFlag a b (negOperand neg c)) := by
  rw [fma64_of_finite ha hb hc, fmaOrdered_of_zero_sum (invalidFma_of_finite ha hb c neg)
    (by rw [fpInf_of_finite ha, fpInf_of_finite hb]; rfl) (by simpa using fpInf_of_finite hc)
    ((exactSum_eq_zero_iff a b c neg).mpr h)]

theorem fma64_of_sum (h : exactFma a b c neg ≠ 0) : fma64 izq rc false ftz um om a b c neg =
    ((roundSum rc ftz um om (finiteSum a b c neg)).1,
      denormalFlag a b (negOperand neg c) ||| (roundSum rc ftz um om (finiteSum a b c neg)).2) := by
  rw [fma64_of_finite ha hb hc, fmaOrdered_of_sum (invalidFma_of_finite ha hb c neg)
    (by rw [fpInf_of_finite ha, fpInf_of_finite hb]; rfl) (by simpa using fpInf_of_finite hc)
    ((exactSum_eq_zero_iff a b c neg).not.mpr h)]
  rfl

end

/-- Of the post-computation flags, those of the rounding alone. -/
theorem denormalFlag_or_and (a b c : Lane) {f g : FpFlags} (hg : flagDE &&& g = 0) :
    (denormalFlag a b c ||| f) &&& g = f &&& g := by
  have hde : denormalFlag a b c &&& g = 0 := by
    unfold denormalFlag
    split
    · exact hg
    · exact BitVec.zero_and
  rw [BitVec.and_comm, BitVec.and_or_distrib_left, BitVec.and_comm, hde, BitVec.and_comm]
  exact BitVec.zero_or

theorem denormalFlag_and (a b c : Lane) {g : FpFlags} (hg : flagDE &&& g = 0) : denormalFlag a b c &&& g = 0 := by
  simpa using denormalFlag_or_and a b c (f := 0) hg

/-! ## The sign of a zero sum (R91) -/

theorem signed_zero (neg : Bool) : signed neg 0 = if neg then 0x8000000000000000#64 else 0 := by
  cases neg <;> rfl

theorem fpValue_signed_zero (neg : Bool) : fpValue (signed neg 0) = 0 := by
  rw [fpValue_eq_zero_iff]
  cases neg <;> rfl

theorem zeroSumNeg_eq (rc : RoundControl) (a b c : Lane) (neg : Bool) : zeroSumNeg rc a b (negOperand neg c) =
    if fpValue a * fpValue b = 0 ∧ (fpSign a != fpSign b) = (fpSign c != neg) then (fpSign a != fpSign b)
    else decide (rc = 0b01#2) := by
  simp only [zeroSumNeg, fpSign_negOperand, mul_eq_zero, fpValue_eq_zero_iff]

/-- Settles O46: a zero sum is not rounded, and its sign is that of its terms where they agree. -/
theorem zeroSumSign : Obligations.ZeroSumSign := by
  intro izq rc ftz um om a b c neg ha hb hc hsum
  dsimp only
  rw [fma64_of_zero_sum ha hb hc hsum, zeroSumNeg_eq, signed_zero, denormalFlag, fpDenormal_negOperand]

/-! ## Overflow and tininess, by the exponent after rounding (log entry 40) -/

theorem overflows_iff (rc : RoundControl) (s : ℚ) : Overflows rc s ↔ Reaches rc (decide (s < 0)) |s| 1024 := Iff.rfl

theorem tiny_iff (rc : RoundControl) (s : ℚ) : Tiny rc s ↔ s ≠ 0 ∧ ¬ Reaches rc (decide (s < 0)) |s| (-1022) := by
  refine and_congr_right fun _ => ?_
  unfold Reaches
  split_ifs
  · exact not_le.symm
  · exact not_lt.symm
  · exact not_le.symm

theorem ne_zero_of_overflows {rc : RoundControl} {s : ℚ} (h : Overflows rc s) : s ≠ 0 := by
  rintro rfl
  have hlt := ((overflows_iff rc 0).mp h).lt
  have hpow : (2 : ℚ) ^ (1024 - 53 : ℤ) ≤ 2 ^ (1024 : ℤ) := zpow_le_zpow_right₀ one_le_two (by decide)
  rw [abs_zero] at hlt
  linarith

section
variable {a b c : Lane} {neg : Bool} (hsum : exactFma a b c neg ≠ 0) (rc : RoundControl)
include hsum

theorem overflows_exactFma_iff : Overflows rc (exactFma a b c neg) ↔ 1023 < roundedExponent rc (finiteSum a b c neg) := by
  rw [overflows_iff, ← finiteSum_neg, ← finiteSum_magnitude, ← le_roundedExponent_iff (finiteSum_mant_pos a b c neg hsum)]
  omega

theorem tiny_exactFma_iff : Tiny rc (exactFma a b c neg) ↔ roundedExponent rc (finiteSum a b c neg) < -1022 := by
  rw [tiny_iff, ← finiteSum_neg, ← finiteSum_magnitude, ← le_roundedExponent_iff (finiteSum_mant_pos a b c neg hsum),
    and_iff_right hsum, not_le]

end

/-! ## Rounding of FMA64 (R87, R90) -/

/-- A value with the sign of the sum equals it exactly when the magnitudes do. -/
theorem value_eq_iff {s : ℚ} {r : Lane} (hsign : fpSign r = decide (s < 0)) : fpValue r = s ↔ |fpValue r| = |s| := by
  refine ⟨congrArg _, fun h => ?_⟩
  rw [fpValue_eq_abs, hsign, h]
  by_cases hs : s < 0
  · simp [hs, abs_of_neg hs]
  · simp [hs, abs_of_nonneg (not_lt.mp hs)]

/-- With the sign of the sum, the distance from it is that of the magnitudes. -/
theorem dist_value {s : ℚ} {r : Lane} (hsign : fpSign r = decide (s < 0)) :
    |fpValue r - s| = |(|fpValue r|) - (|s|)| := by
  conv_lhs => rw [fpValue_eq_abs, hsign]
  by_cases hs : s < 0
  · rw [decide_eq_true hs, if_pos rfl, abs_of_neg hs, abs_sub_comm]
    congr 1
    ring
  · rw [decide_eq_false hs, if_neg Bool.false_ne_true, abs_of_nonneg (not_lt.mp hs)]

/-- The negative of a value is at another distance from any number but 0. -/
theorem opposite_dist_ne {w r s : ℚ} (hs : s ≠ 0) (habs : |w| = |r|) (hne : w ≠ r) : |w - s| ≠ |r - s| := by
  intro htie
  obtain h | h := abs_eq_abs.mp htie
  · exact hne (by linarith)
  · obtain hw | hw := abs_eq_abs.mp habs
    · exact hne hw
    · exact hs (by linarith)

/-- A finite operation that neither overflows nor is flushed or trapped is correctly rounded, if its sum is not zero. -/
theorem fma64_correct {a b c : Lane} {neg : Bool} {rc : RoundControl} (ha : fpFinite a = true) (hb : fpFinite b = true)
    (hc : fpFinite c = true) (hsum : exactFma a b c neg ≠ 0) {um : Bool} (hover : ¬ Overflows rc (exactFma a b c neg))
    (hunder : um = true ∨ ¬ Tiny rc (exactFma a b c neg)) (izq om : Bool) :
    ∃ n, CorrectlyRounded rc (finiteSum a b c neg) (fma64 izq rc false false um om a b c neg).1 n := by
  rw [overflows_exactFma_iff hsum, not_lt] at hover
  rw [tiny_exactFma_iff hsum, not_lt] at hunder
  rw [fma64_of_sum ha hb hc hsum]
  exact roundSum_correct (finiteSum_mant_pos a b c neg hsum) hover (hunder.symm.imp_right fun h => ⟨h, rfl⟩) om

theorem fpValue_fma64_of_zero_sum {a b c : Lane} {neg : Bool} (ha : fpFinite a = true) (hb : fpFinite b = true)
    (hc : fpFinite c = true) (hsum : exactFma a b c neg = 0) (izq : Bool) (rc : RoundControl) (ftz um om : Bool) :
    fpFinite (fma64 izq rc false ftz um om a b c neg).1 = true ∧ fpValue (fma64 izq rc false ftz um om a b c neg).1 = 0 := by
  rw [fma64_of_zero_sum ha hb hc hsum]
  refine ⟨?_, fpValue_signed_zero _⟩
  rw [fpFinite, fpExp_signed]
  rfl

/-- Settles O47: the magnitude rounds to the nearest on its grid, and every double on its side is a multiple of the grid or
farther away than one. -/
theorem roundsToNearestEven : Obligations.RoundsToNearestEven := by
  intro izq um om a b c neg ha hb hc hover hunder
  dsimp only
  by_cases hsum : exactFma a b c neg = 0
  · obtain ⟨hfinite, hzero⟩ := fpValue_fma64_of_zero_sum ha hb hc hsum izq 0b00#2 false um om
    rw [hzero, hsum]
    refine ⟨hfinite, fun h => absurd rfl h, fun w _ => ⟨by simp, fun hne htie => absurd ?_ hne⟩⟩
    simpa using htie
  · obtain ⟨n, hr⟩ := fma64_correct ha hb hc hsum hover hunder izq om
    generalize (fma64 izq 0b00#2 false false um om a b c neg).1 = r at hr ⊢
    have hmant := finiteSum_mant_pos a b c neg hsum
    have hsign : fpSign r = decide (exactFma a b c neg < 0) := hr.lane.sign.trans (finiteSum_neg a b c neg)
    have hdist := dist_value hsign
    refine ⟨hr.lane.finite, fun _ => hsign, fun w _ => ?_⟩
    have hnearest := hr.nearest hmant w
    have hreverse := abs_abs_sub_abs_le (fpValue w) (exactFma a b c neg)
    rw [finiteSum_magnitude, ← hdist] at hnearest
    refine ⟨hnearest.trans hreverse, fun hne htie => ?_⟩
    by_cases habs : |fpValue w| = |fpValue r|
    · exact absurd (opposite_dist_ne hsum habs hne) (not_not.mpr htie)
    · refine hr.even_of_tie hmant habs ?_
      rw [finiteSum_magnitude, ← hdist]
      exact le_antisymm (hreverse.trans_eq htie) hnearest

/-- Toward zero from a sum that is not negative: no double between the result and the sum. -/
theorem le_of_magnitudes_toward {r s w : ℚ} (hr : 0 ≤ r) (hw : |w| ≤ s → |w| ≤ r) (h : w ≤ s) : w ≤ r := by
  obtain hneg | hpos := le_total w 0
  · exact hneg.trans hr
  · rw [abs_of_nonneg hpos] at hw
    exact hw h

/-- Away from zero from a positive sum: no double between the sum and the result. -/
theorem le_of_magnitudes_away {r s w : ℚ} (hs : 0 < s) (hw : s ≤ |w| → r ≤ |w|) (h : s ≤ w) : r ≤ w := by
  rw [abs_of_pos (hs.trans_le h)] at hw
  exact hw h

/-- What a directed rounding answers, by the sign of the sum and whether it is taken away from zero. -/
theorem fma64_directed {a b c : Lane} {neg : Bool} {rc : RoundControl} (hrc : rc ≠ 0b00#2) (ha : fpFinite a = true)
    (hb : fpFinite b = true) (hc : fpFinite c = true) (hsum : exactFma a b c neg ≠ 0) {um : Bool}
    (hover : ¬ Overflows rc (exactFma a b c neg)) (hunder : um = true ∨ ¬ Tiny rc (exactFma a b c neg)) (izq om : Bool) :
    let s := exactFma a b c neg
    let r := (fma64 izq rc false false um om a b c neg).1
    fpFinite r = true ∧ fpSign r = decide (s < 0) ∧
      (roundsAway rc (decide (s < 0)) = true → |s| ≤ |fpValue r| ∧ ∀ w, |s| ≤ |fpValue w| → |fpValue r| ≤ |fpValue w|) ∧
      (roundsAway rc (decide (s < 0)) = false → |fpValue r| ≤ |s| ∧ ∀ w, |fpValue w| ≤ |s| → |fpValue w| ≤ |fpValue r|) := by
  obtain ⟨n, hr⟩ := fma64_correct ha hb hc hsum hover hunder izq om
  have hmant := finiteSum_mant_pos a b c neg hsum
  have haway := hr.away hmant
  have htoward := hr.toward hmant hrc
  rw [finiteSum_neg, finiteSum_magnitude] at haway htoward
  exact ⟨hr.lane.finite, hr.lane.sign.trans (finiteSum_neg a b c neg), haway, htoward⟩

/-- Settles O48: a directed rounding takes the magnitude away from zero or toward it, by the sign of the sum. -/
theorem roundsInDirection : Obligations.RoundsInDirection := by
  intro izq um om rc a b c neg ha hb hc hover hunder
  dsimp only
  by_cases hsum : exactFma a b c neg = 0
  · obtain ⟨hfinite, hzero⟩ := fpValue_fma64_of_zero_sum ha hb hc hsum izq rc false um om
    rw [hzero, hsum]
    exact ⟨fun _ => ⟨hfinite, le_rfl, fun _ _ h => h⟩, fun _ => ⟨hfinite, le_rfl, fun _ _ h => h⟩,
      fun _ => ⟨hfinite, le_rfl, fun h => absurd rfl h, fun _ _ h => h⟩⟩
  · have hdirected {rc' : RoundControl} (heq : rc = rc') (hrc : rc' ≠ 0b00#2) :=
      fma64_directed (heq ▸ hrc) ha hb hc hsum hover hunder izq om
    dsimp only at hdirected
    generalize (fma64 izq rc false false um om a b c neg).1 = r at hdirected ⊢
    generalize exactFma a b c neg = s at hsum hdirected ⊢
    have hvalue := fpValue_eq_abs r
    refine ⟨fun hrc => ?_, fun hrc => ?_, fun hrc => ?_⟩
    · obtain ⟨hfinite, hsign, haway, htoward⟩ := hdirected hrc (by decide)
      subst hrc
      by_cases hs : s < 0
      · obtain ⟨hge, hmin⟩ := haway (by simp [hs, roundsAway])
        rw [hsign, decide_eq_true hs, if_pos rfl] at hvalue
        rw [abs_of_neg hs] at hge hmin
        refine ⟨hfinite, by linarith, fun w _ hw => ?_⟩
        have hside := le_of_magnitudes_away (neg_pos.mpr hs) (by simpa using hmin w) (neg_le_neg hw)
        linarith
      · obtain ⟨hle, hmax⟩ := htoward (by simp [hs, roundsAway])
        rw [hsign, decide_eq_false hs, if_neg Bool.false_ne_true] at hvalue
        rw [abs_of_nonneg (not_lt.mp hs)] at hle hmax
        rw [hvalue]
        exact ⟨hfinite, hle, fun w _ => le_of_magnitudes_toward (abs_nonneg _) (hmax w)⟩
    · obtain ⟨hfinite, hsign, haway, htoward⟩ := hdirected hrc (by decide)
      subst hrc
      by_cases hs : s < 0
      · obtain ⟨hle, hmax⟩ := htoward (by simp [hs, roundsAway])
        rw [hsign, decide_eq_true hs, if_pos rfl] at hvalue
        rw [abs_of_neg hs] at hle hmax
        refine ⟨hfinite, by linarith, fun w _ hw => ?_⟩
        have hside := le_of_magnitudes_toward (abs_nonneg _) (by simpa using hmax w) (neg_le_neg hw)
        linarith
      · obtain ⟨hge, hmin⟩ := haway (by simp [hs, roundsAway])
        rw [hsign, decide_eq_false hs, if_neg Bool.false_ne_true] at hvalue
        have hpos := lt_of_le_of_ne (not_lt.mp hs) (Ne.symm hsum)
        rw [abs_of_pos hpos] at hge hmin
        rw [hvalue]
        exact ⟨hfinite, hge, fun w _ => le_of_magnitudes_away hpos (hmin w)⟩
    · obtain ⟨hfinite, hsign, -, htoward⟩ := hdirected hrc (by decide)
      obtain ⟨hle, hmax⟩ := htoward (by simp [hrc, roundsAway])
      exact ⟨hfinite, hle, fun _ => hsign, fun w _ => hmax w⟩

/-! ## Overflow (R96) -/

theorem overflowResult_eq (rc : RoundControl) (neg : Bool) : overflowResult rc neg =
    if neg = false then (if rc = 0b00#2 ∨ rc = 0b10#2 then 0x7FF0000000000000#64 else 0x7FEFFFFFFFFFFFFF#64)
    else (if rc = 0b00#2 ∨ rc = 0b01#2 then 0xFFF0000000000000#64 else 0xFFEFFFFFFFFFFFFF#64) := by
  revert rc neg
  decide

/-- Settles O49: the sum overflows where its exponent after rounding exceeds 1023, and only there is `OE` raised. -/
theorem overflowResponse : Obligations.OverflowResponse := by
  intro izq rc ftz um om a b c neg ha hb hc
  dsimp only
  have hresult (hover : Overflows rc (exactFma a b c neg)) : fma64 izq rc false ftz um om a b c neg =
      (overflowResult rc (finiteSum a b c neg).neg,
        denormalFlag a b (negOperand neg c) ||| if om then flagOE ||| flagPE else flagOE) := by
    have hsum := ne_zero_of_overflows hover
    rw [fma64_of_sum ha hb hc hsum, roundSum_of_overflow ((overflows_exactFma_iff hsum rc).mp hover)]
  refine ⟨fun hover => ?_, fun hover _ => ?_, fun hover => ?_⟩
  · rw [hresult hover, denormalFlag, fpDenormal_negOperand]
    cases om
    · exact BitVec.or_zero.symm
    · exact (BitVec.or_assoc ..).symm
  · have hpos : 0 < exactFma a b c neg ↔ (finiteSum a b c neg).neg = false := by
      rw [finiteSum_neg, decide_eq_false_iff_not, not_lt, le_iff_lt_or_eq, or_iff_left (ne_zero_of_overflows hover).symm]
    rw [hresult hover, overflowResult_eq]
    simp only [hpos]
  · by_cases hsum : exactFma a b c neg = 0
    · rw [fma64_of_zero_sum ha hb hc hsum]
      exact denormalFlag_and _ _ _ rfl
    · rw [overflows_exactFma_iff hsum, not_lt] at hover
      rw [fma64_of_sum ha hb hc hsum]
      exact (denormalFlag_or_and _ _ _ rfl).trans (roundSum_flagOE hover)

/-! ## Underflow (R97) -/

/-- Settles O50: the sum is tiny where its exponent after rounding is below -1022, and only there is `UE` raised. -/
theorem underflowResponse : Obligations.UnderflowResponse := by
  intro izq rc ftz um om a b c neg ha hb hc
  dsimp only
  have hexponent (htiny : Tiny rc (exactFma a b c neg)) := (tiny_exactFma_iff htiny.1 rc).mp htiny
  refine ⟨?_, ?_, ?_, fun htiny => ?_⟩
  · rintro htiny rfl rfl
    rw [fma64_of_sum ha hb hc htiny.1, roundSum_of_tiny_flushed (hexponent htiny)]
    refine ⟨?_, (denormalFlag_or_and _ _ _ (f := flagUE ||| flagPE) rfl).trans rfl⟩
    rw [signed_zero, finiteSum_neg]
    simp only [decide_eq_true_eq]
  · rintro htiny rfl rfl
    obtain ⟨-, hsign, habs⟩ := finiteLane_tinyResult (hexponent htiny)
    have hexact := roundGrid_inexact rc (finiteSum a b c neg) (-1074)
    rw [← habs, finiteSum_magnitude, ne_eq, ← value_eq_iff (hsign.trans (finiteSum_neg a b c neg))] at hexact
    rw [fma64_of_sum ha hb hc htiny.1, roundSum_of_tiny_masked (hexponent htiny),
      denormalFlag_or_and _ _ _ rfl]
    simp only [hexact, ite_not]
    split <;> rfl
  · rintro htiny rfl
    rw [fma64_of_sum ha hb hc htiny.1, roundSum_of_tiny_unmasked (hexponent htiny)]
    exact (denormalFlag_or_and _ _ _ (f := flagUE) rfl).trans rfl
  · by_cases hsum : exactFma a b c neg = 0
    · rw [fma64_of_zero_sum ha hb hc hsum]
      exact denormalFlag_and _ _ _ rfl
    · rw [tiny_exactFma_iff hsum, not_lt] at htiny
      rw [fma64_of_sum ha hb hc hsum]
      exact (denormalFlag_or_and _ _ _ rfl).trans (roundSum_flagUE htiny)

/-! ## Precision (R98) -/

/-- No finite double is a sum that overflows. -/
theorem value_ne_of_overflows {rc : RoundControl} {s : ℚ} {r : Lane} (hover : Overflows rc s) (hr : fpFinite r = true) :
    fpValue r ≠ s := by
  rintro rfl
  exact absurd ((overflows_iff rc _).mp hover).lt (not_lt.mpr (abs_fpValue_le hr))

/-- Settles O51: rounding raises `PE` where it changes the magnitude, and a sum that overflows is no finite double. -/
theorem precisionFlagExact : Obligations.PrecisionFlagExact := by
  intro izq rc a b c neg ha hb hc
  dsimp only
  intro hfinite
  by_cases hsum : exactFma a b c neg = 0
  · obtain ⟨-, hzero⟩ := fpValue_fma64_of_zero_sum ha hb hc hsum izq rc false true true
    rw [hzero, hsum, fma64_of_zero_sum ha hb hc hsum]
    exact iff_of_false (not_not.mpr (denormalFlag_and _ _ _ rfl)) (not_not.mpr rfl)
  · have hresult := fma64_of_sum ha hb hc (izq := izq) (rc := rc) (ftz := false) (um := true) (om := true) hsum
    have hmant := finiteSum_mant_pos a b c neg hsum
    by_cases hover : Overflows rc (exactFma a b c neg)
    · refine iff_of_true ?_ (value_ne_of_overflows hover hfinite)
      rw [hresult, denormalFlag_or_and _ _ _ rfl, roundSum_of_overflow ((overflows_exactFma_iff hsum rc).mp hover)]
      exact (by decide : (flagOE ||| flagPE) &&& flagPE ≠ 0)
    · rw [overflows_exactFma_iff hsum, not_lt] at hover
      obtain ⟨n, hcorrect⟩ := roundSum_correct hmant (ftz := false) (um := true) hover (.inr ⟨rfl, rfl⟩) true
      rw [hresult, denormalFlag_or_and _ _ _ rfl, roundSum_flagPE hmant hover (.inr ⟨rfl, rfl⟩), finiteSum_magnitude,
        ne_eq, ne_eq, value_eq_iff (hcorrect.lane.sign.trans (finiteSum_neg a b c neg))]

end Sys2Proof.Machine
end

section
/-! PROOFS. The six VEX forms complete with the result of every lane and their frame (O17 to O19). A form with every lane
active and no exception suppressed leaves `laneResult` in each lane, and under VEX that is the lane function of `MXCSR` on
the operands in the roles of the mnemonic. -/

namespace Sys2Proof.Machine

/-! ## The flags of all lanes -/

theorem orLanes_succ (n : Nat) (f : Nat → FpFlags) : orLanes (n + 1) f = orLanes n f ||| f n := by
  simp [orLanes, List.range_succ]

theorem unionFlags_eq_orLanes (s : State) (o : FormOp) (n : Nat) :
    unionFlags s o n = orLanes n fun j => if activeLane s o j then (laneResult s o j).2 else 0 := by
  induction n with
  | zero => rfl
  | succ n ih => rw [unionFlags, orLanes_succ, ih]

/-! ## Completion with every lane active -/

section
variable {s : State} {o : FormOp}

theorem newLane_of_active {j : Nat} (hj : j < vecLanes o.vl) (hactive : activeLane s o j = true) :
    newLane s o j = (laneResult s o j).1 := by
  rw [newLane, if_pos hj, if_pos hactive]

theorem afterFlags_of_not_suppressed (h : suppressAll s o = false) : afterFlags s o = s.orFlags (raisedFlags s o) := by
  simp [afterFlags, h]

/-- The write-back of a form with every lane active and no exception suppressed (R101, R102, R104). -/
theorem completedAll_writeBack (hactive : ∀ j, activeLane s o j = true) (hsuppress : suppressAll s o = false) :
    CompletedAll s (writeBack s o (afterFlags s o)) o (vecLanes o.vl) (laneResult s o) where
  lanes j hj := by
    rw [readZmm_writeBack_self, laneOf_ofLanes _ _ (hj.trans_le (vecLanes_le_eight _)), newLane_of_active hj (hactive j)]
  upper j hvl hmax := by
    rw [readZmm_writeBack_self, laneOf_ofLanes _ _ (hmax.trans_le (maxLanes_le_eight _)), newLane_upper hvl hmax]
  mxcsr := by
    simp [afterFlags_of_not_suppressed hsuppress, raisedFlags, unionFlags_eq_orLanes, hactive]
  pc := ⟨rfl, rfl⟩
  frame := by
    rw [afterFlags_of_not_suppressed hsuppress]
    exact frame_writeBack_orFlags ..

end

/-! ## The VEX forms -/

section
variable (f : Form) (vl : VecLen) (x : List LegacyPrefix) (d v : VexReg) (r : VexSrc3) (s : State)

theorem activeLane_vexOp (j : Nat) : activeLane s (vexOp f vl x d v r) j = true := rfl

/-- VEX has no embedded rounding (R89). -/
theorem embeddedRC_vexOp : embeddedRC (vexOp f vl x d v r) = none := by
  cases r <;> rfl

theorem suppressAll_vexOp : suppressAll s (vexOp f vl x d v r) = false := by
  rw [suppressAll, embeddedRC_vexOp]
  rfl

/-- A lane of a VEX form is the lane function of `MXCSR` on the operands in their roles (R82, R88). -/
theorem laneResult_vexOp (j : Nat) : laneResult s (vexOp f vl x d v r) j =
    let o := vexOp f vl x d v r
    let (a, b, c) := roles f (laneOf (s.readZmm o.dest) j) (laneOf (s.readZmm o.src2) j) (src3Lane s o j)
    mxcsrFma s a b c j := by
  simp only [laneResult, roundControl, embeddedRC_vexOp, suppressAll_vexOp, Bool.false_or]
  rfl

variable {f vl x d v r s}

/-- A VEX form completes where it can, with `res` in its lanes wherever that is their result. -/
theorem execForm_vexOp_completes {res : Nat → Lane × FpFlags} (hres : ∀ j, laneResult s (vexOp f vl x d v r) j = res j)
    (h : Completes s (vexOp f vl x d v r)) :
    ∃ t, execForm (vexOp f vl x d v r) s = .next t ∧ CompletedAll s t (vexOp f vl x d v r) (vecLanes vl) res := by
  obtain rfl := funext hres
  exact ⟨_, execForm_next_iff.mpr ⟨h, rfl⟩, completedAll_writeBack (activeLane_vexOp f vl x d v r s) (suppressAll_vexOp ..)⟩

end

/-- Settles O17: the roles of 132 are `DEST`, `SRC3`, `SRC2`. -/
theorem vex132Completes : Obligations.Vex132Completes := fun _ _ _ _ _ =>
  ⟨execForm_vexOp_completes fun _ => laneResult_vexOp .f132 .., execForm_vexOp_completes fun _ => laneResult_vexOp .f132 ..⟩

/-- Settles O18: the roles of 213 are `SRC2`, `DEST`, `SRC3`. -/
theorem vex213Completes : Obligations.Vex213Completes := fun _ _ _ _ _ =>
  ⟨execForm_vexOp_completes fun _ => laneResult_vexOp .f213 .., execForm_vexOp_completes fun _ => laneResult_vexOp .f213 ..⟩

/-- Settles O19: the roles of 231 are `SRC2`, `SRC3`, `DEST`. -/
theorem vex231Completes : Obligations.Vex231Completes := fun _ _ _ _ _ =>
  ⟨execForm_vexOp_completes fun _ => laneResult_vexOp .f231 .., execForm_vexOp_completes fun _ => laneResult_vexOp .f231 ..⟩

end Sys2Proof.Machine
end

section
/-! PROOFS. The nine EVEX forms complete with the result of every active lane, the merged or zeroed inactive ones, and their
frame (O20 to O22). The write-back leaves `newLane` in each lane, by whether the writemask makes it active, and the result of
an active lane is the form's lane function on the operands in the roles of the mnemonic. -/

namespace Sys2Proof.Machine

/-! ## Completion under a writemask -/

section
variable {s : State} {o : FormOp} {k : MaskSpec} (hk : o.mask = some k)
include hk

theorem activeLane_masked_iff (j : Nat) : activeLane s o j = true ↔ k.aaa = 0#3 ∨ (s.readK k.aaa).getLsbD j = true := by
  simp [activeLane, hk]

theorem zeroing_masked : zeroing o = k.z := by
  simp [zeroing, hk]

/-- An inactive lane is 0 under zeroing, and the old lane under merging (R99). -/
theorem newLane_of_masked_off {j : Nat} (hj : j < vecLanes o.vl)
    (hinactive : ¬ (k.aaa = 0#3 ∨ (s.readK k.aaa).getLsbD j = true)) :
    newLane s o j = if k.z then 0 else laneOf (s.readZmm o.dest) j := by
  rw [← activeLane_masked_iff hk] at hinactive
  rw [newLane, if_pos hj, if_neg hinactive, zeroing_masked hk]

/-- The write-back of a form under a writemask (R99, R101, R102, R104). -/
theorem completedMasked_writeBack :
    CompletedMasked s (writeBack s o (afterFlags s o)) o k (vecLanes o.vl) (laneResult s o) where
  active j hj hactive := by
    rw [readZmm_writeBack_self, laneOf_ofLanes _ _ (hj.trans_le (vecLanes_le_eight _)),
      newLane_of_active hj ((activeLane_masked_iff hk j).mpr hactive)]
  merged j hj hinactive hz := by
    rw [readZmm_writeBack_self, laneOf_ofLanes _ _ (hj.trans_le (vecLanes_le_eight _)), newLane_of_masked_off hk hj hinactive,
      hz, if_neg Bool.false_ne_true]
  zeroed j hj hinactive hz := by
    rw [readZmm_writeBack_self, laneOf_ofLanes _ _ (hj.trans_le (vecLanes_le_eight _)), newLane_of_masked_off hk hj hinactive,
      hz, if_pos rfl]
  upper j hvl hmax := by
    rw [readZmm_writeBack_self, laneOf_ofLanes _ _ (hmax.trans_le (maxLanes_le_eight _)), newLane_upper hvl hmax]
  mxcsr := by
    simp only [← activeLane_masked_iff hk, ← unionFlags_eq_orLanes, writeBack_mxcsr, afterFlags, raisedFlags,
      apply_ite State.mxcsr, State.orFlags_mxcsr]
  pc := ⟨rfl, rfl⟩
  frame := by
    obtain ⟨f, -, hflags⟩ := afterFlags_eq_orFlags s o
    rw [hflags]
    exact frame_writeBack_orFlags ..

end

/-! ## The EVEX forms -/

/-- The result of a lane is the form's lane function on the operands in their roles (R82, R88, R89, R137). -/
theorem laneResult_eq_formFma {s : State} {o : FormOp} {j : Nat} {a b c : Lane}
    (hroles : roles o.form (laneOf (s.readZmm o.dest) j) (laneOf (s.readZmm o.src2) j) (src3Lane s o j) = (a, b, c)) :
    laneResult s o j = formFma s o a b c j := by
  cases hrc : embeddedRC o with
  | none => simp [laneResult, hroles, formFma, roundControl, suppressAll, hrc, mxcsrFma]
  | some rc =>
    cases hsae : s.cfg.saeUpdatesFlags <;>
      simp [laneResult, hroles, formFma, roundControl, suppressAll, hrc, hsae, embeddedFma]

/-- An EVEX form completes where it can, with the lane function of the operands in their roles in its active lanes. -/
theorem execForm_evexOp_completes {f : Form} {vl : VecLen} {x : List LegacyPrefix} {k : MaskSpec} {d v : VReg}
    {r : EvexSrc3} {s : State} {a b c : Nat → Lane}
    (hroles : ∀ j, roles f (laneOf (s.readZmm d) j) (laneOf (s.readZmm v) j) (src3Lane s (evexOp f vl x k d v r) j) =
      (a j, b j, c j))
    (h : Completes s (evexOp f vl x k d v r)) :
    ∃ t, execForm (evexOp f vl x k d v r) s = .next t ∧ CompletedMasked s t (evexOp f vl x k d v r) k (vecLanes vl)
      fun j => formFma s (evexOp f vl x k d v r) (a j) (b j) (c j) j := by
  have hres : laneResult s (evexOp f vl x k d v r) = fun j => formFma s (evexOp f vl x k d v r) (a j) (b j) (c j) j :=
    funext fun j => laneResult_eq_formFma (hroles j)
  exact ⟨_, execForm_next_iff.mpr ⟨h, rfl⟩, hres ▸ completedMasked_writeBack rfl⟩

/-- Settles O20: the roles of 132 are `DEST`, `SRC3`, `SRC2`. -/
theorem evex132Completes : Obligations.Evex132Completes := fun _ _ _ _ _ _ =>
  ⟨execForm_evexOp_completes fun _ => rfl, execForm_evexOp_completes fun _ => rfl, execForm_evexOp_completes fun _ => rfl⟩

/-- Settles O21: the roles of 213 are `SRC2`, `DEST`, `SRC3`. -/
theorem evex213Completes : Obligations.Evex213Completes := fun _ _ _ _ _ _ =>
  ⟨execForm_evexOp_completes fun _ => rfl, execForm_evexOp_completes fun _ => rfl, execForm_evexOp_completes fun _ => rfl⟩

/-- Settles O22: the roles of 231 are `SRC2`, `SRC3`, `DEST`. -/
theorem evex231Completes : Obligations.Evex231Completes := fun _ _ _ _ _ _ =>
  ⟨execForm_evexOp_completes fun _ => rfl, execForm_evexOp_completes fun _ => rfl, execForm_evexOp_completes fun _ => rfl⟩

end Sys2Proof.Machine
end

section
/-! PROOFS. A byte that the instruction needs and that cannot be fetched ends the step (O16). The decoder asks for more on the
bytes in front of it, so the window of 15 bytes ends at it, or the longer window of more than 15 bytes does. -/

namespace Sys2Proof

theorem Decoded.withMore_ne_truncated {d : Decoded} (h : d ≠ .truncated) (e : List Byte) : d.withMore e ≠ .truncated := by
  cases d with
  | truncated => exact absurd rfl h
  | instr | undefined | notInSpec | mode32Register | addressing16 => exact nofun

/-- The decoder asks for more on the front of bytes on which it asks for more. -/
theorem decode_truncated_of_append {m : DecodeMode} {p : B1RegNon512} {bs e : List Byte}
    (h : decode m p (bs ++ e) = .truncated) : decode m p bs = .truncated := by
  by_contra hanswer
  rw [decode_append hanswer] at h
  exact Decoded.withMore_ne_truncated hanswer e h

end Sys2Proof

namespace Sys2Proof.Machine

/-! ## The window at a byte that cannot be fetched -/

theorem fetchWindow_of_stop {s : State} {r : Result} (j : Nat) :
    ∀ n k : Nat, j < n → (∀ i < j, fetchStop s (k + i) = none) → fetchStop s (k + j) = some r →
      fetchWindow s n k = ((List.range' k j).map (fetchByte s), some r) := by
  induction j with
  | zero =>
    intro n k hn _ hstop
    obtain ⟨n, rfl⟩ := Nat.exists_eq_add_one.mpr hn
    rw [Nat.add_zero] at hstop
    simp only [fetchWindow, hstop, List.range'_zero, List.map_nil]
  | succ j ih =>
    intro n k hn hfetch hstop
    obtain ⟨n, rfl⟩ := Nat.exists_eq_add_one.mpr (Nat.zero_lt_of_lt hn)
    have hrest := ih n (k + 1) (Nat.lt_of_succ_lt_succ hn)
      (fun i hi => by rw [Nat.add_right_comm]; exact hfetch (i + 1) (Nat.succ_lt_succ hi))
      (by rw [Nat.add_right_comm]; exact hstop)
    have hfirst : fetchStop s k = none := hfetch 0 (Nat.zero_lt_succ j)
    simp only [fetchWindow, hfirst, hrest, List.range'_succ, List.map_cons]

section
variable {s : State} {k : Nat} (hfetch : ∀ n, n < k → fetchStop s n = none)
include hfetch

/-- A window no longer than the fetchable bytes is all of them that fit. -/
theorem fetchWindow_of_le {n : Nat} (hn : n ≤ k) : fetchWindow s n 0 = ((List.range n).map (fetchByte s), none) := by
  rw [fetchWindow_of_fetchable n 0 fun j hj => by rw [Nat.zero_add]; exact hfetch j (by omega), List.range_eq_range']

/-- Prefixes and the longest form after them are all that the decoder asks for (R52). -/
theorem decode_past_prefixes_ne_truncated (hk : prefixRun s (2 ^ 64) 0 + longestForm ≤ k) (p : B1RegNon512) :
    decode s.decodeMode p ((List.range (prefixRun s (2 ^ 64) 0 + longestForm)).map (fetchByte s)) ≠ .truncated := by
  have hlt : prefixRun s (2 ^ 64) 0 < prefixRun s (2 ^ 64) 0 + longestForm := Nat.lt_add_of_pos_right (by decide)
  have hend := isPrefix_after_prefixes (hfetch _ (hlt.trans_le hk))
  have hrest := length_le_dropWhile (p := isPrefix s.decodeMode) (q := prefixRun s (2 ^ 64) 0)
    (bs := (List.range (prefixRun s (2 ^ 64) 0 + longestForm)).map (fetchByte s)) (by simpa using hlt) (by simpa using hend)
  rw [List.length_map, List.length_range] at hrest
  exact decode_ne_truncated (Nat.le_of_add_le_add_left hrest) p

variable (hneed : decode s.decodeMode s.cfg.b1RegNon512 ((List.range k).map (fetchByte s)) = .truncated)
include hneed

theorem decode_range_of_le {n : Nat} (hn : n ≤ k) :
    decode s.decodeMode s.cfg.b1RegNon512 ((List.range n).map (fetchByte s)) = .truncated := by
  obtain ⟨e, rfl⟩ := Nat.exists_eq_add_of_le hn
  rw [List.range_add, List.map_append] at hneed
  exact decode_truncated_of_append hneed

variable {r : Result} (hstop : fetchStop s k = some r)
include hstop

/-- A byte that a window reaches, and the decoder asks for, stops it. -/
theorem fetchWindow_of_needed_stop {n : Nat} (hn : k < n) :
    decode s.decodeMode s.cfg.b1RegNon512 (fetchWindow s n 0).1 = .truncated ∧ (fetchWindow s n 0).2 = some r := by
  rw [fetchWindow_of_stop k n 0 hn (by simpa using hfetch) (by simpa using hstop), ← List.range_eq_range']
  exact ⟨hneed, rfl⟩

/-- Among more than 15 bytes it is the needed byte that stops the fetch (R147 rows 1 and 2). -/
theorem overlong_of_needed_stop : overlong s = r := by
  have hreach : k < prefixRun s (2 ^ 64) 0 + longestForm := by
    by_contra hle
    exact decode_past_prefixes_ne_truncated hfetch (Nat.le_of_not_lt hle) _
      (decode_range_of_le hfetch hneed (Nat.le_of_not_lt hle))
  obtain ⟨htruncated, hend⟩ := fetchWindow_of_needed_stop hfetch hneed hstop hreach
  simp only [overlong, htruncated, hend, Option.getD_some]

theorem fetch_of_needed_stop : fetch s = .stop r := by
  by_cases hk : k < maxLength
  · obtain ⟨htruncated, hend⟩ := fetchWindow_of_needed_stop hfetch hneed hstop hk
    simp only [fetch, htruncated, hend, Option.getD_some]
  · have hwindow := fetchWindow_of_le hfetch (Nat.le_of_not_lt hk)
    have htruncated := decode_range_of_le hfetch hneed (Nat.le_of_not_lt hk)
    rw [fetch_of_truncated (by rw [hwindow]; exact htruncated) (by rw [hwindow]),
      overlong_of_needed_stop hfetch hneed hstop]

end

/-! ## What stops the fetch of a byte -/

theorem codeInBounds_of_is64 {s : State} (h : s.is64 = true) (k : Nat) :
    codeInBounds s k = true ↔ s.pc + k < 2 ^ 64 ∧ s.canonical (s.rip + BitVec.ofNat 64 k) = true := by
  simp [codeInBounds, codeAddress, h]

theorem codeInBounds_of_not_is64 {s : State} (h : s.is64 = false) (k : Nat) :
    codeInBounds s k = true ↔ s.rip.toNat + k ≤ s.cs.limit.toNat := by
  simp [codeInBounds, h]

theorem fetchStop_of_out_of_bounds {s : State} {k : Nat} (h : ¬ codeInBounds s k = true) :
    fetchStop s k = some (raise .gp s) := by
  rw [fetchStop, if_neg h]

theorem fetchStop_of_translate_fault {s : State} {k : Nat} {e : Exc} {a : Word64} (hin : codeInBounds s k = true)
    (h : s.translate .fetch s.cpl (codeAddress s k) = .fault e a) : fetchStop s k = some (raiseTranslation e a s) := by
  rw [fetchStop, if_pos hin, h]

/-- Without rows a fault of `Translate` is a #PF with the error code of R138 at the address accessed. -/
theorem translate_fault_of_noRows {s : State} (h : s.cfg.translation.rows = []) {acc : Access} {cpl : BitVec 2}
    {la a : Word64} {e : Exc} (hfault : s.translate acc cpl la = .fault e a) :
    a = la ∧ ∃ p rsvd pk sgx, e = .pf (pageFaultCode p rsvd acc cpl pk sgx) := by
  simp only [State.translate, h, lookupRow_nil] at hfault
  split at hfault
  · split at hfault
    · simp only [accessPage] at hfault
      split_ifs at hfault <;> cases hfault <;> exact ⟨rfl, _, _, _, _, rfl⟩
    · split at hfault <;> cases hfault
      exact ⟨rfl, _, _, _, _, rfl⟩
  · cases hfault

/-- The I/D bit of the error code of a fetch is 1 (R138). -/
theorem pageFaultCode_fetch_bit4 (p rsvd : Bool) (cpl : BitVec 2) (pk sgx : Bool) :
    (pageFaultCode p rsvd .fetch cpl pk sgx).getLsbD 4 = true := by
  revert p rsvd cpl pk sgx
  decide

/-- Settles O16: the byte that stops the fetch ends the step with its exception, which is #GP(0) out of bounds and else what
`Translate` answers. -/
theorem fetchFaults : Obligations.FetchFaults := by
  intro s k hq hfetch hneed
  have hstep {r : Result} (hstop : fetchStop s k = some r) : step s = deliver r :=
    step_of_fetch_stop hq (fetch_of_needed_stop hfetch hneed hstop)
  refine ⟨fun h64 hout => ?_, fun h32 hout => ?_, fun hin => ?_⟩
  · refine hstep (fetchStop_of_out_of_bounds fun hin => ?_)
    obtain ⟨hpc, hcanonical⟩ := (codeInBounds_of_is64 h64 k).mp hin
    obtain hpast | hcan := hout
    · omega
    · simp [hcanonical] at hcan
  · refine hstep (fetchStop_of_out_of_bounds fun hin => ?_)
    have := (codeInBounds_of_not_is64 h32 k).mp hin
    omega
  · have hin : codeInBounds s k = true := by
      cases h64 : s.is64 with
      | true => exact (codeInBounds_of_is64 h64 k).mpr (by simpa [h64] using hin)
      | false => exact (codeInBounds_of_not_is64 h64 k).mpr (by simpa [h64] using hin)
    refine ⟨fun c a hfault => ⟨hstep (fetchStop_of_translate_fault hin hfault), fun hrows => ?_⟩,
      fun e a hne hfault => ?_⟩
    · obtain ⟨ha, p, rsvd, pk, sgx, hc⟩ := translate_fault_of_noRows hrows hfault
      obtain rfl := Exc.pf.inj hc
      exact ⟨ha, pageFaultCode_fetch_bit4 ..⟩
    · rw [hstep (fetchStop_of_translate_fault hin hfault), raiseTranslation, State.recordFault_of_not_pf a hne]
      rfl

end Sys2Proof.Machine
end

section
/-! PROOFS. The segment check of the operand read outside 64-bit mode (O36). -/

namespace Sys2Proof.Machine

/-- A fault of the segment check stops the operand read ahead of every other fault (R143, R147). -/
theorem memOperandStop_of_segmentFault {s : State} {o : FormOp} {m : MemOperand} {bcst : Bool} {e : Exc}
    (h16 : s.is64 = true ∨ o.pfx.contains .addressSize = false)
    (h : segmentFault s (operandSeg o m) (effectiveAddress s o m bcst) (neededBytes s o bcst) = some e) :
    memOperandStop s o m bcst = some (raise e s) := by
  have hsize : (!s.is64 && o.pfx.contains .addressSize) = false := by
    obtain h64 | hpfx := h16
    · rw [h64, Bool.not_true, Bool.false_and]
    · rw [hpfx, Bool.and_false]
  simp only [memOperandStop, hsize, h, Bool.false_eq_true, if_false]

theorem exec_of_segmentFault {i : Instr} {s : State} {m : MemOperand} {bcst : Bool} {e : Exc}
    (he : formEnabled s i.formOp = true) (hts : s.cr0TS = false) (hm : memOperand? i.formOp = some (m, bcst))
    (h16 : s.is64 = true ∨ i.formOp.pfx.contains .addressSize = false)
    (h : segmentFault s (operandSeg i.formOp m) (effectiveAddress s i.formOp m bcst) (neededBytes s i.formOp bcst) =
      some e) : exec i s = .fault (.exception e s) := by
  rw [exec_eq_execForm]
  exact execForm_of_operandStop he hts ((operandStop_of_memOperand hm).trans (memOperandStop_of_segmentFault h16 h))

section
variable {s : State} {g : Seg} {ea : Word64} {offs : List Nat} {off : Nat} (h32 : s.is64 = false) (hoff : off ∈ offs)
include h32 hoff

theorem segmentFault_of_null (h : nullSelector (s.readSeg g) = true) : segmentFault s g ea offs = some .gp := by
  have hneed : offs.isEmpty = false := List.isEmpty_eq_false_iff.mpr (List.ne_nil_of_mem hoff)
  simp only [segmentFault, hneed, h32, h, Bool.false_eq_true, if_false, if_true]

/-- A needed byte beyond the limit of a segment faults by the segment, whether or not it may be read (R126). -/
theorem segmentFault_of_limit (hnull : nullSelector (s.readSeg g) = false)
    (hlimit : (s.readSeg g).limit.toNat < ea.toNat + off) : segmentFault s g ea offs = some (segException g) := by
  have hneed : offs.isEmpty = false := List.isEmpty_eq_false_iff.mpr (List.ne_nil_of_mem hoff)
  have hbeyond : (offs.all fun off => ea.toNat + off ≤ (s.readSeg g).limit.toNat) = false :=
    List.all_eq_false.mpr ⟨off, hoff, by simpa using hlimit⟩
  simp only [segmentFault, hneed, h32, hnull, hbeyond, Bool.and_false, Bool.false_eq_true, if_false]

end

/-- Settles O36: the segment check comes before the other faults of the operand read, and finds the null selector before the
limit. -/
theorem segmentLimitFaults : Obligations.SegmentLimitFaults := by
  intro i s m bcst off he hts h32 hpfx hm hoff _ _ g
  exact ⟨fun hnull => exec_of_segmentFault he hts hm (.inr hpfx) (segmentFault_of_null h32 hoff hnull),
    fun hnull hlimit => exec_of_segmentFault he hts hm (.inr hpfx) (segmentFault_of_limit h32 hoff hnull hlimit)⟩

end Sys2Proof.Machine
end

section
/-! PROOFS. The effective address and the segment of a memory operand, from the instruction and from its bytes (O41, O42). -/

namespace Sys2Proof.Machine

theorem length_encode (i : Instr) : (encode i).length = i.formOp.len := by
  obtain ⟨f, l, x, d, v, r, rfl⟩ | ⟨f, vl, x, k, d, v, r, rfl⟩ := i.vex_or_evex
  · rw [encode_vexInstr, formOp_vexInstr]
    exact Laws.EncodedLength.vex_statement ..
  · rw [encode_evexInstr, formOp_evexInstr]
    exact Laws.EncodedLength.evex_statement ..

/-- The effective address is the sum, cut to the address size (R121, R127). -/
theorem effectiveAddress_eq_truncatedAddress (s : State) (o : FormOp) (m : MemOperand) (bcst : Bool) :
    effectiveAddress s o m bcst = truncatedAddress s o.pfx (addressSum s (disp8Scale o bcst) o.len m) := by
  simp [effectiveAddress, address64, truncatedAddress]

theorem addressSum_ripRel {s : State} (h64 : s.is64 = true) (scale len : Nat) (disp : BitVec 32) :
    addressSum s scale len (.ripRel disp) = s.rip + BitVec.ofNat 64 len + disp.signExtend 64 := by
  simp only [addressSum, h64, if_true]

theorem truncatedAddress_of_is64 {s : State} (h64 : s.is64 = true) (pfx : List LegacyPrefix) (a : Word64) :
    truncatedAddress s pfx a = if pfx.contains .addressSize then (a.setWidth 32).setWidth 64 else a := by
  simp only [truncatedAddress, h64, true_and, List.contains_iff_mem, ite_not]

/-- Settles O42: the length that the sum counts is that of the encoding. -/
theorem ripRelativeFromNextInstruction : Obligations.RipRelativeFromNextInstruction := by
  intro s i disp bcst h64 _ next
  rw [effectiveAddress_eq_truncatedAddress, addressSum_ripRel h64, truncatedAddress_of_is64 h64, ← length_encode]

/-! ## Displacement and index, by the bytes that hold them -/

/-- The 32-bit displacement at the front of `bs`, little-endian (R60). -/
def bytesDisp32 (bs : List Byte) : BitVec 32 := bs.getD 3 0 ++ bs.getD 2 0 ++ bs.getD 1 0 ++ bs.getD 0 0

/-- The displacement at the front of `bs` that `mod` of 00, 01 or 10 asks for, a `disp8` times `n` (R60, R61). -/
def bytesDisp (n : Nat) (md : BitVec 2) (bs : List Byte) : Word64 :=
  if md = 0b00#2 then 0
  else if md = 0b01#2 then BitVec.ofNat 64 n * (bs.getD 0 0).signExtend 64
  else (bytesDisp32 bs).signExtend 64

theorem disp32?_eq_bytesDisp32 {bs : List Byte} (hlen : 4 ≤ bs.length) : disp32? bs = some (bytesDisp32 bs, bs.drop 4) := by
  match bs, hlen with
  | b0 :: b1 :: b2 :: b3 :: bs, _ => rfl

theorem dispValue_of_disp? {md : BitVec 2} {bs rest : List Byte} {d : Disp} (hlen : 4 ≤ bs.length)
    (h : disp? md bs = some (d, rest)) (n : Nat) : dispValue n d = bytesDisp n md bs := by
  simp only [disp?, disp32?_eq_bytesDisp32 hlen] at h
  unfold bytesDisp
  split_ifs at h ⊢
  · cases h
    rfl
  · cases bs with
    | nil => cases hlen
    | cons b bs =>
      cases h
      exact BitVec.mul_comm ..
  · cases h
    rfl

/-- The index register of a SIB byte; `X:index = 0100` is none (R59). -/
def sibIndex? (x : BitVec 1) (sib : Byte) : Option GReg :=
  if x ++ sib.extractLsb' 3 3 = 4#4 then none else some (x ++ sib.extractLsb' 3 3)

/-- The index register of a SIB byte times `2^scale`, 0 for none (R124). -/
def sibIndex (s : State) (x : BitVec 1) (sib : Byte) : Word64 :=
  if x ++ sib.extractLsb' 3 3 = 0b0100#4 then 0
  else s.readGpr (x ++ sib.extractLsb' 3 3) * BitVec.ofNat 64 (2 ^ (sib.extractLsb' 6 2).toNat)

theorem indexValue_sibIndex? (s : State) (x : BitVec 1) (sib : Byte) :
    indexValue s (sibIndex? x sib) (sib.extractLsb' 6 2) = sibIndex s x sib := by
  unfold sibIndex? sibIndex
  split_ifs
  · rfl
  · rw [indexValue, BitVec.shiftLeft_eq_mul_twoPow]
    congr 1
    exact BitVec.eq_of_toNat_eq (by simp [BitVec.toNat_twoPow])

/-! ## The table of R124, with and without a SIB byte -/

section
variable (s : State) (x b : BitVec 1) (n : Nat) (next : Word64) {modrm : Byte}

theorem addressRow_of_sib (hrm : modrm.extractLsb' 0 3 = 0b100#3) (sib : Byte) (bs : List Byte) :
    addressRow s x b n next modrm (sib :: bs) =
      if sib.extractLsb' 0 3 = 0b101#3 ∧ modrm.extractLsb' 6 2 = 0b00#2 then
        sibIndex s x sib + (bytesDisp32 bs).signExtend 64
      else s.readGpr (b ++ sib.extractLsb' 0 3) + sibIndex s x sib + bytesDisp n (modrm.extractLsb' 6 2) bs := by
  refine (if_pos hrm).trans ?_
  by_cases hmod : modrm.extractLsb' 6 2 = 0b00#2
  · refine (if_pos hmod).trans ?_
    by_cases hbase : sib.extractLsb' 0 3 = 0b101#3
    · exact (if_pos hbase).trans (if_pos ⟨hbase, hmod⟩).symm
    · rw [if_neg (not_and_of_not_left _ hbase), bytesDisp, if_pos hmod, add_zero]
      exact if_neg hbase
  · refine (if_neg hmod).trans ?_
    rw [if_neg (not_and_of_not_right _ hmod), bytesDisp, if_neg hmod]
    exact (add_ite ..).symm

theorem addressRow_of_no_sib (hrm : modrm.extractLsb' 0 3 ≠ 0b100#3) (tail : List Byte) :
    addressRow s x b n next modrm tail =
      if modrm.extractLsb' 6 2 = 0b00#2 ∧ modrm.extractLsb' 0 3 = 0b101#3 then
        if s.is64 then next + (bytesDisp32 tail).signExtend 64 else (bytesDisp32 tail).signExtend 64
      else s.readGpr (b ++ modrm.extractLsb' 0 3) + bytesDisp n (modrm.extractLsb' 6 2) tail := by
  refine (if_neg hrm).trans ?_
  by_cases hmod : modrm.extractLsb' 6 2 = 0b00#2
  · refine (if_pos hmod).trans ?_
    by_cases hrip : modrm.extractLsb' 0 3 = 0b101#3
    · exact (if_pos hrip).trans (if_pos ⟨hmod, hrip⟩).symm
    · rw [if_neg (not_and_of_not_right _ hrip), bytesDisp, if_pos hmod, add_zero]
      exact if_neg hrip
  · refine (if_neg hmod).trans ?_
    rw [if_neg (not_and_of_not_left _ hmod), bytesDisp, if_neg hmod]
    exact (add_ite ..).symm

end

/-! ## The operand that ModRM and SIB name -/

theorem gReg_eq_four {b : BitVec 1} {r : BitVec 3} : (b ++ r : GReg) = 4#4 ↔ b = 0#1 ∧ r = 0b100#3 := by
  revert b r; decide

theorem gReg_eq_five {b : BitVec 1} {r : BitVec 3} : (b ++ r : GReg) = 5#4 ↔ b = 0#1 ∧ r = 0b101#3 := by
  revert b r; decide

/-- The memory operand of each row of R124, by ModRM, the bytes after it, and the extension bits `x` and `b`. -/
inductive MemRow (x b : BitVec 1) (modrm : Byte) : List Byte → MemOperand → Prop
  | base {tail : List Byte} {d : Disp} (hrm : modrm.extractLsb' 0 3 ≠ 0b100#3)
      (hrip : ¬ (modrm.extractLsb' 6 2 = 0b00#2 ∧ modrm.extractLsb' 0 3 = 0b101#3))
      (hdisp : ∀ n, dispValue n d = bytesDisp n (modrm.extractLsb' 6 2) tail) :
      MemRow x b modrm tail (.base (b ++ modrm.extractLsb' 0 3) d)
  | ripRel {tail : List Byte} (hmod : modrm.extractLsb' 6 2 = 0b00#2) (hrm : modrm.extractLsb' 0 3 = 0b101#3) :
      MemRow x b modrm tail (.ripRel (bytesDisp32 tail))
  | sib {sib : Byte} {bs : List Byte} {d : Disp} (hrm : modrm.extractLsb' 0 3 = 0b100#3)
      (hbase : ¬ (sib.extractLsb' 0 3 = 0b101#3 ∧ modrm.extractLsb' 6 2 = 0b00#2))
      (hdisp : ∀ n, dispValue n d = bytesDisp n (modrm.extractLsb' 6 2) bs) :
      MemRow x b modrm (sib :: bs) (.sib (b ++ sib.extractLsb' 0 3) (sibIndex? x sib) (sib.extractLsb' 6 2) d)
  | sibNoBase {sib : Byte} {bs : List Byte} (hrm : modrm.extractLsb' 0 3 = 0b100#3)
      (hbase : sib.extractLsb' 0 3 = 0b101#3) (hmod : modrm.extractLsb' 6 2 = 0b00#2) :
      MemRow x b modrm (sib :: bs) (.sibNoBase (sibIndex? x sib) (sib.extractLsb' 6 2) (bytesDisp32 bs))

theorem memRow_of_sibOperand? {x b : BitVec 1} {modrm sib : Byte} {bs rest : List Byte} {o : MemOperand}
    (hlen : 4 ≤ bs.length) (hrm : modrm.extractLsb' 0 3 = 0b100#3)
    (h : sibOperand? x b (modrm.extractLsb' 6 2) sib bs = some (o, rest)) : MemRow x b modrm (sib :: bs) o := by
  simp only [sibOperand?, disp32?_eq_bytesDisp32 hlen] at h
  by_cases hbase : sib.extractLsb' 0 3 = 0b101#3 ∧ modrm.extractLsb' 6 2 = 0b00#2
  · rw [if_pos hbase] at h
    cases h
    exact .sibNoBase hrm hbase.1 hbase.2
  · rw [if_neg hbase] at h
    obtain ⟨⟨d, r⟩, hd, ⟨⟩⟩ := Option.map_eq_some_iff.mp h
    exact .sib hrm hbase (dispValue_of_disp? hlen hd)

theorem memRow_of_rmField? {x b : BitVec 1} {modrm : Byte} {tail rest : List Byte} {o : MemOperand}
    (hlen : 5 ≤ tail.length) (h : rmField? x b modrm tail = some (.mem o, rest)) : MemRow x b modrm tail o := by
  have hlen4 : 4 ≤ tail.length := Nat.le_of_succ_le hlen
  simp only [rmField?, disp32?_eq_bytesDisp32 hlen4] at h
  split_ifs at h with hmod hrm hrip
  · cases h
  · cases tail with
    | nil => cases h
    | cons sib bs =>
      obtain ⟨⟨m, r⟩, hm, ⟨⟩⟩ := Option.map_eq_some_iff.mp h
      exact memRow_of_sibOperand? (Nat.le_of_succ_le_succ hlen) hrm hm
  · cases h
    exact .ripRel hrip.1 hrip.2
  · obtain ⟨⟨d, r⟩, hd, ⟨⟩⟩ := Option.map_eq_some_iff.mp h
    exact .base hrm hrip (dispValue_of_disp? hlen4 hd)

section
variable {x b : BitVec 1} {modrm : Byte} {tail : List Byte} {o : MemOperand}

/-- The sum is the row of R124 that the bits select; the next instruction's address is `pc + len` (R125). -/
theorem MemRow.addressSum_eq (h : MemRow x b modrm tail o) (s : State) (n len : Nat) :
    addressSum s n len o = addressRow s x b n (s.rip + BitVec.ofNat 64 len) modrm tail := by
  cases h with
  | base hrm hrip hdisp => rw [addressRow_of_no_sib _ _ _ _ _ hrm, if_neg hrip, addressSum, hdisp]
  | ripRel hmod hrm =>
    rw [addressRow_of_no_sib _ _ _ _ _ (by rw [hrm]; decide), if_pos ⟨hmod, hrm⟩]
    rfl
  | sib hrm hbase hdisp =>
    rw [addressRow_of_sib _ _ _ _ _ hrm, if_neg hbase, addressSum, hdisp, indexValue_sibIndex?]
  | sibNoBase hrm hbase hmod =>
    rw [addressRow_of_sib _ _ _ _ _ hrm, if_pos ⟨hbase, hmod⟩, addressSum, indexValue_sibIndex?]

/-- The base register is number 4 or 5 exactly where the bits of R126 say so. -/
theorem MemRow.stackBased_iff (h : MemRow x b modrm tail o) :
    stackBased b modrm tail ↔ baseReg? o = some 4#4 ∨ baseReg? o = some 5#4 := by
  cases h with
  | base hrm hrip _ =>
    simp only [stackBased, baseReg?, Option.some.injEq, gReg_eq_four, gReg_eq_five]
    tauto
  | ripRel hmod hrm => simp [stackBased, baseReg?, hmod, hrm]
  | sib hrm hbase _ =>
    simp only [stackBased, baseReg?, Option.some.injEq, gReg_eq_four, gReg_eq_five, hrm, List.getD_cons_zero]
    have hsib : 0b100#3 ≠ 0b101#3 := by decide
    tauto
  | sibNoBase hrm hbase hmod => simp [stackBased, baseReg?, hmod, hrm, hbase]

end

/-- Read from the front, the last override is the one that stands (R126). -/
theorem segOverride_eq_lastOverride (pfx : List LegacyPrefix) : segOverride pfx = lastOverride pfx := by
  induction pfx with
  | nil => rfl
  | cons p pfx ih =>
    rw [lastOverride, List.reverse_cons, List.findSome?_append, ← lastOverride, ← ih]
    cases p with
    | seg g => cases h : segOverride pfx <;> simp [segOverride, h]
    | addressSize => simp [segOverride]

/-- The address and the segment of a memory operand, by the bits that name it (R124 to R126). -/
theorem MemRow.operand {x b : BitVec 1} {modrm : Byte} {tail : List Byte} {m : MemOperand} (h : MemRow x b modrm tail m)
    (s : State) (o : FormOp) (bcst : Bool) :
    effectiveAddress s o m bcst =
        truncatedAddress s o.pfx (addressRow s x b (disp8Scale o bcst) (s.rip + BitVec.ofNat 64 o.len) modrm tail) ∧
      (stackBased b modrm tail → operandSeg o m = (lastOverride o.pfx).getD .ss) ∧
      (¬ stackBased b modrm tail → operandSeg o m = (lastOverride o.pfx).getD .ds) := by
  rw [effectiveAddress_eq_truncatedAddress, h.addressSum_eq, operandSeg, defaultSeg, segOverride_eq_lastOverride,
    h.stackBased_iff]
  exact ⟨rfl, fun hstack => by rw [if_pos hstack], fun hstack => by rw [if_neg hstack]⟩

/-! ## Decoding a memory operand -/

theorem decodeMode_of_not_legacy {s : State} (h : s.legacyMode = false) :
    s.decodeMode = if s.is64 then .mode64 else .mode32 := by
  unfold State.is64 State.decodeMode
  rw [h]
  cases s.mode <;> rfl

theorem decodeMode_ne_legacy {s : State} (h : s.legacyMode = false) : s.decodeMode ≠ .legacy := by
  rw [decodeMode_of_not_legacy h]
  split_ifs <;> exact nofun

theorem is64_eq_false_iff (s : State) : s.is64 = false ↔ s.decodeMode ≠ .mode64 := decide_eq_false_iff_not

theorem extB_of_not_legacy {s : State} (h : s.legacyMode = false) (b : BitVec 1) :
    extB s.decodeMode b = if s.is64 then b else 0#1 := by
  rw [decodeMode_of_not_legacy h]
  cases s.is64 <;> rfl

/-- What is left of the bytes tells the length of the instruction (R52). -/
theorem len_of_decode {m : DecodeMode} {p : B1RegNon512} {bs rest : List Byte} {i : Instr}
    (h : decode m p bs = .instr i rest) : bs.length - rest.length = i.formOp.len := by
  obtain ⟨used, rfl, hlen⟩ := decodeConsumesLength m p bs i rest h
  rw [List.length_append, Nat.add_sub_cancel, hlen]

theorem addressing16?_of_not_addressSize {m : DecodeMode} {pfx : List LegacyPrefix}
    (h : m ≠ .mode64 → LegacyPrefix.addressSize ∉ pfx) (modrm : Byte) : addressing16? m pfx modrm = false := by
  cases m with
  | mode32 => simp [addressing16?, h nofun]
  | mode64 | legacy => rfl

section
variable {m : DecodeMode} {pfx : List LegacyPrefix} {modrm : Byte} {tail : List Byte} (hm : m ≠ .legacy)
  (hmod : modrm.extractLsb' 6 2 ≠ 0b11#2) (hlen : 5 ≤ tail.length)
include hm hmod hlen

/-- A VEX encoding with the fixed fields of a form and a memory operand, behind allowed prefixes, is that form (R53, R54). -/
theorem decode_vexMemory {b1 b2 : Byte}
    (h32 : m ≠ .mode64 → b1.extractLsb' 6 2 = 0b11#2 ∧ LegacyPrefix.addressSize ∉ pfx)
    (hfixed : b1.extractLsb' 0 5 = 0b00010#5 ∧ b2.extractLsb' 7 1 = 1#1 ∧ b2.extractLsb' 0 2 = 0b01#2)
    (p : B1RegNon512) (f : Form) :
    ∃ o rest, MemRow (~~~b1.extractLsb' 6 1) (extB m (~~~b1.extractLsb' 5 1)) modrm tail o ∧
      decode m p (pfx.map LegacyPrefix.byte ++ 0xC4#8 :: b1 :: b2 :: f.opcode :: modrm :: tail) =
        .instr (vexRow m pfx f b1 b2 modrm (.mem o)) rest := by
  obtain ⟨⟨rm, rest⟩, hrm⟩ := rmField?_of_length hlen (~~~b1.extractLsb' 6 1) (extB m (~~~b1.extractLsb' 5 1)) modrm
  obtain ⟨o, rfl⟩ := mem_of_rmField? hmod hrm
  refine ⟨o, rest, memRow_of_rmField? hlen hrm, ?_⟩
  rw [decode_prefixed_vex, decodeVex_of_fixed (fun h => (h32 h).1) hfixed, beq_eq_false_iff_ne.mpr hm,
    decodeVexOperands_of_some (addressing16?_of_not_addressSize (fun h => (h32 h).2) modrm) hrm]
  rfl

/-- An EVEX encoding with the fixed fields of a form, none of them reserved, and a memory operand, behind allowed prefixes, is
that form of the length `L'L`, a broadcast for `b = 1` (R56, R57, R64). -/
theorem decode_evexMemory {p0 p1 p2 : Byte}
    (h32 : m ≠ .mode64 → p0.extractLsb' 6 2 = 0b11#2 ∧ LegacyPrefix.addressSize ∉ pfx)
    (hlow : mode32Refused m p0 p1 p2 = false) (h0 : p0.extractLsb' 0 4 = 0b0010#4) (hW : p1.extractLsb' 7 1 = 1#1)
    (h1 : p1.extractLsb' 0 3 = 0b101#3) (hmask : ¬ (p2.extractLsb' 7 1 = 1#1 ∧ p2.extractLsb' 0 3 = 0#3)) {vl : VecLen}
    (hvl : vecLen? (p2.extractLsb' 5 2) = some vl) (p : B1RegNon512) (f : Form) :
    ∃ o rest, MemRow (~~~p0.extractLsb' 6 1) (extB m (~~~p0.extractLsb' 5 1)) modrm tail o ∧
      decode m p (pfx.map LegacyPrefix.byte ++ 0x62#8 :: p0 :: p1 :: p2 :: f.opcode :: modrm :: tail) =
        .instr (evexInstr f vl pfx (evexMask p2) (~~~p0.extractLsb' 4 1 ++ ~~~p0.extractLsb' 7 1 ++ modrm.extractLsb' 3 3)
          (~~~p2.extractLsb' 3 1 ++ ~~~p1.extractLsb' 3 4) (if p2.getLsbD 4 then .bcst o else .mem o)) rest := by
  obtain ⟨hmm, hzero⟩ := evexP0_fixed_fields h0
  obtain ⟨hpp, hone⟩ := evexP1_fixed_fields h1
  have hgood : ¬ (false = true ∨ (evexMask p2).wf = false) := by simpa [evexMask_wf_eq_false] using hmask
  obtain ⟨⟨rm, rest⟩, hrm⟩ := rmField?_of_length hlen (~~~p0.extractLsb' 6 1) (extB m (~~~p0.extractLsb' 5 1)) modrm
  obtain ⟨o, rfl⟩ := mem_of_rmField? hmod hrm
  refine ⟨o, rest, memRow_of_rmField? hlen hrm, ?_⟩
  rw [decode_prefixed_evex, decodeEvex_of_fixed (fun h => (h32 h).1) ⟨hmm, hW, hpp⟩, beq_eq_false_iff_ne.mpr hm, hzero, hone]
  simp only [bne_self_eq_false, Bool.or_self]
  rw [decodeEvexOperands_of_some (addressing16?_of_not_addressSize (fun h => (h32 h).2) modrm) hrm, if_neg hgood]
  simp only [evexAnswer, RmField.evexSrc3?, hvl, Option.map_some, hlow, bit_eq_one_iff, Bool.decide_eq_true, Bool.false_eq_true,
    if_false]

end

/-! ## The multiplier of a `disp8` -/

theorem vecLen?_of_ne_reserved {ll : BitVec 2} (h : ll ≠ 0b11#2) :
    ∃ vl, vecLen? ll = some vl ∧ 8 * vecLanes vl = 16 * 2 ^ ll.toNat := by
  obtain rfl | rfl | rfl : ll = 0b00#2 ∨ ll = 0b01#2 ∨ ll = 0b10#2 := by revert ll; decide
  · exact ⟨.v128, rfl, rfl⟩
  · exact ⟨.v256, rfl, rfl⟩
  · exact ⟨.v512, rfl, rfl⟩

section
variable (f : Form) (vl : VecLen) (x : List LegacyPrefix) (k : MaskSpec) (d v : VReg) (o : MemOperand) (bcst : Bool)

theorem memOperand?_evexOp :
    memOperand? (evexOp f vl x k d v (if bcst then .bcst o else .mem o)) = some (o, bcst) := by
  cases bcst <;> rfl

theorem disp8Scale_evexOp (r : EvexSrc3) :
    disp8Scale (evexOp f vl x k d v r) bcst = if bcst then 8 else 8 * vecLanes vl := rfl

theorem disp8Scale_vexOp (d v : VexReg) (r : VexSrc3) : disp8Scale (vexOp f vl x d v r) bcst = 1 := rfl

end

theorem effectiveAddress_base_d8 {s : State} (h64 : s.is64 = true) {o : FormOp} (hpfx : o.pfx.contains .addressSize = false)
    (b : GReg) (disp : BitVec 8) (bcst : Bool) :
    effectiveAddress s o (.base b (.d8 disp)) bcst =
      s.readGpr b + disp.signExtend 64 * BitVec.ofNat 64 (disp8Scale o bcst) := by
  rw [effectiveAddress_eq_truncatedAddress, truncatedAddress_of_is64 h64, hpfx]
  rfl

/-- Settles O41: the decoder reads the row of R124 that the bits select, the operand of that row has its address and segment,
and the multiplier of a `disp8` is the operand's size under EVEX. -/
theorem compressedDisplacement : Obligations.CompressedDisplacement := by
  refine ⟨?_, ?_, ?_⟩
  · intro s p pfx f b1 b2 modrm tail hlegacy hmod hlen h32 hmap hW hpp b bytes
    obtain ⟨o, rest, hrow, hdec⟩ := decode_vexMemory (decodeMode_ne_legacy hlegacy) hmod hlen
      (fun h => h32 ((is64_eq_false_iff s).mpr h)) ⟨hmap, hW, hpp⟩ p f
    rw [extB_of_not_legacy hlegacy] at hrow
    refine ⟨_, o, rest, hdec, ?_⟩
    rw [len_of_decode hdec, vexRow, formOp_vexInstr]
    exact ⟨rfl, hrow.operand s _ false⟩
  · intro s p pfx f p0 p1 p2 modrm tail hlegacy hmod hlen h32 h0 hW h1 hll hmask b bcst n bytes
    obtain ⟨vl, hvl, hsize⟩ := vecLen?_of_ne_reserved hll
    have hlow : mode32Refused s.decodeMode p0 p1 p2 = false := by
      cases hm : s.decodeMode with
      | mode32 =>
        obtain ⟨-, -, hlow⟩ := h32 ((is64_eq_false_iff s).mpr (by rw [hm]; exact nofun))
        simp [mode32Refused, hlow]
      | mode64 | legacy => rfl
    have htop (h : s.decodeMode ≠ .mode64) : p0.extractLsb' 6 2 = 0b11#2 ∧ LegacyPrefix.addressSize ∉ pfx := by
      obtain ⟨htop, hpfx, -⟩ := h32 ((is64_eq_false_iff s).mpr h)
      exact ⟨htop, hpfx⟩
    obtain ⟨o, rest, hrow, hdec⟩ :=
      decode_evexMemory (decodeMode_ne_legacy hlegacy) hmod hlen htop hlow h0 hW h1 hmask hvl p f
    rw [extB_of_not_legacy hlegacy] at hrow
    refine ⟨_, o, rest, hdec, ?_⟩
    rw [len_of_decode hdec, formOp_evexInstr]
    have hoperand (d v : VReg) := hrow.operand s (evexOp f vl pfx (evexMask p2) d v (if bcst then .bcst o else .mem o)) bcst
    simp only [disp8Scale_evexOp, hsize] at hoperand
    exact ⟨memOperand?_evexOp .., hoperand _ _⟩
  · intro s f x k d v dv vv b disp h64 hpfx m ea
    refine ⟨effectiveAddress_base_d8 h64 hpfx b disp false, effectiveAddress_base_d8 h64 hpfx b disp false,
      effectiveAddress_base_d8 h64 hpfx b disp false, fun vl => effectiveAddress_base_d8 h64 hpfx b disp true, fun vl => ?_⟩
    rw [effectiveAddress_base_d8 h64 hpfx, disp8Scale_vexOp, BitVec.mul_one]

end Sys2Proof.Machine
end

section
/-! PROOFS. How an instruction ends short of completion: what is not enabled (O33, O34), masked and suppressed exceptions
(O23, O24), unmasked ones (O31, O32), and the state that a fault leaves (O30). -/

namespace Sys2Proof.Machine

/-! ## The branches of `EXEC`, one equation each (R104) -/

section
variable {i : Instr} {s : State}

theorem exec_of_disabled (he : formEnabled s i.formOp = false) : exec i s = raise .ud s := by
  simp [exec_eq_execForm, execForm, he]

theorem exec_of_taskSwitched (he : formEnabled s i.formOp = true) (hts : s.cr0TS = true) : exec i s = raise .nm s := by
  simp [exec_eq_execForm, execForm, he, hts]

theorem exec_of_operandStop {r : Result} (he : formEnabled s i.formOp = true) (hts : s.cr0TS = false)
    (hstop : operandStop s i.formOp = some r) : exec i s = r :=
  (exec_eq_execForm i s).trans (execForm_of_operandStop he hts hstop)

theorem exec_of_readable (he : formEnabled s i.formOp = true) (hts : s.cr0TS = false)
    (hstop : operandStop s i.formOp = none) : exec i s = computeForm i.formOp s := by
  simp [exec_eq_execForm, execForm, he, hts, hstop]

end

/-! ## The enable checks (R142, R144) -/

/-- The rows of R142 that speak of the machine's state, all met by an enabled form. -/
structure EnableRows (s : State) (o : FormOp) : Prop where
  protectedMode : s.cr0PE = true
  notVirtual8086 : s.flagVM = false
  osxsave : s.cr4OSXSAVE = true
  avxState : s.xcr0Avx = true
  avx512State : o.mask ≠ none → s.xcr0Avx512 = true
  fma : o.mask = none → s.cfg.hasFMA = true
  avx512F : o.mask ≠ none → s.cfg.hasAVX512F = true
  avx512VL : o.mask ≠ none → o.vl ≠ .v512 → s.cfg.hasAVX512VL = true

theorem enableRows_of_formEnabled {s : State} {o : FormOp} (h : formEnabled s o = true) : EnableRows s o := by
  simp only [formEnabled, State.legacyMode, Bool.and_eq_true, Bool.not_eq_true', Bool.or_eq_false_iff, Bool.not_eq_false'] at h
  obtain ⟨⟨⟨⟨⟨⟨hpe, hvm⟩, hosxsave⟩, havx⟩, havx512⟩, hcpuid⟩, -⟩ := h
  cases hmask : o.mask with
  | none => exact ⟨hpe, hvm, hosxsave, havx, by simp [hmask], by simpa [cpuidOk, hmask] using hcpuid, by simp [hmask],
      by simp [hmask]⟩
  | some k =>
    simp only [hmask, Option.isNone_some, Bool.false_or] at havx512
    simp only [cpuidOk, hmask, Bool.and_eq_true, Bool.or_eq_true, decide_eq_true_eq] at hcpuid
    obtain ⟨hf, hvl⟩ := hcpuid
    exact ⟨hpe, hvm, hosxsave, havx, fun _ => havx512, by simp [hmask], fun _ => hf, fun _ h => hvl.resolve_left h⟩

/-- Settles O33: each condition contradicts a row of R142, so the form is not enabled. -/
theorem disabledFormUndefined : Obligations.DisabledFormUndefined := by
  intro i s hrow
  refine exec_of_disabled (Bool.eq_false_iff.mpr fun henabled => ?_)
  have hrows := enableRows_of_formEnabled henabled
  obtain h | h | h | h | ⟨hmask, h⟩ | ⟨hmask, h⟩ | ⟨hmask, h⟩ | ⟨hmask, hvl, h⟩ := hrow
  · exact Bool.false_ne_true (h.symm.trans hrows.protectedMode)
  · exact Bool.false_ne_true (hrows.notVirtual8086.symm.trans h)
  · exact Bool.false_ne_true (h.symm.trans hrows.osxsave)
  · exact h (of_decide_eq_true hrows.avxState)
  · exact h (of_decide_eq_true (hrows.avx512State hmask))
  · exact Bool.false_ne_true (h.symm.trans (hrows.fma hmask))
  · exact Bool.false_ne_true (h.symm.trans (hrows.avx512F hmask))
  · exact Bool.false_ne_true (h.symm.trans (hrows.avx512VL hmask hvl))

/-- Settles O34: `CR0.TS` is looked at after the enable checks and before the operand. -/
theorem taskSwitchedFormsUnavailable : Obligations.TaskSwitchedFormsUnavailable := by
  refine ⟨rfl, rfl, fun i s hts => ?_⟩
  cases he : formEnabled s i.formOp with
  | true => exact exec_of_taskSwitched he hts
  | false => exact exec_of_disabled he

/-! ## Masked and suppressed exceptions (R134, R137) -/

/-- Flags without `ZE` are all masked where the five masks are 1 (R134). -/
theorem unmasked_of_allMasked {s : State} (h : s.allMasked = true) {f : FpFlags} (hf : NoZeroDivide f) :
    s.unmasked f = 0 := by
  have hmasks : s.mxcsrMasks &&& 0b111011#6 = 0b111011#6 := of_decide_eq_true h
  have hfive : f &&& 0b111011#6 = f := by
    unfold NoZeroDivide at hf
    revert f
    decide
  calc f &&& ~~~s.mxcsrMasks = f &&& (s.mxcsrMasks &&& 0b111011#6) &&& ~~~s.mxcsrMasks := by rw [hmasks, hfive]
    _ = f &&& 0b111011#6 &&& (s.mxcsrMasks &&& ~~~s.mxcsrMasks) := by ac_rfl
    _ = 0 := by rw [BitVec.and_not_self]; exact BitVec.and_zero

/-- Settles O24: the masks cover every flag that lanes raise, so the form completes with the flags ORed in. -/
theorem maskedExceptionsComplete : Obligations.MaskedExceptionsComplete := by
  intro i s he hts hstop hmasked hsuppress
  have hquiet : fpQuiet s i.formOp = true := by
    simp [fpQuiet, unmasked_of_allMasked hmasked (raisedFlags_noZeroDivide s i.formOp)]
  refine ⟨_, (exec_eq_execForm i s).trans (execForm_next_iff.mpr ⟨⟨he, hts, hstop, hquiet⟩, rfl⟩), ?_, rfl, rfl⟩
  rw [writeBack_mxcsr, afterFlags_of_not_suppressed hsuppress, State.orFlags_mxcsr]

/-- Under embedded rounding a form's lane function is the masked one under `EVEX.RC` (R89, R137). -/
theorem formFma_of_embeddedRC {s : State} {o : FormOp} {rc : RoundControl} (hsae : s.cfg.saeUpdatesFlags = false)
    (hrc : embeddedRC o = some rc) : formFma s o = embeddedFma rc s := by
  funext a b c j
  simp [formFma, hrc, hsae]

/-- Settles O23: a register is always readable and embedded rounding suppresses every exception, so the form completes with
`MXCSR` kept. -/
theorem embeddedRoundingNeverFaults : Obligations.EmbeddedRoundingNeverFaults := by
  intro f x k d v r rc s i hsae he hts
  have hsuppress : suppressAll s (evexOp f .v512 x k d v (.regB r rc)) = true := by
    simp [suppressAll, embeddedRC, evexOp, EvexSrc3.toSrc3, hsae]
  have hfma : formFma s (evexOp f .v512 x k d v (.regB r rc)) = embeddedFma rc s := formFma_of_embeddedRC hsae rfl
  rw [exec_eq_execForm, formOp_evexInstr]
  rw [formOp_evexInstr] at he
  obtain ⟨t, ht, hwritten⟩ := execForm_evexOp_completes (fun _ => rfl)
    ⟨he, hts, operandStop_register rfl, by simp [fpQuiet, hsuppress]⟩
  refine ⟨t, ht, ?_, fun j hj hactive => ?_⟩
  · rw [hwritten.mxcsr, if_pos hsuppress]
  · refine (hwritten.active j hj hactive).trans ?_
    rw [hfma]
    cases f <;> rfl

/-! ## Unmasked exceptions (R135, R136) -/

/-- The flags R136 leaves: the pre-computation flags where one of them is unmasked, else all that were raised. -/
def shownFlags (s : State) (f : FpFlags) : FpFlags := if s.unmasked (f &&& preFlags) ≠ 0 then f &&& preFlags else f

theorem fpRespond_of_unmasked {s : State} {f : FpFlags} (h : s.unmasked f ≠ 0) :
    fpRespond s f = .faults (s.leaveFlags (shownFlags s f) f) := by
  unfold fpRespond shownFlags
  rw [if_pos h]
  split <;> rfl

theorem leaveFlags_fpException (s : State) (shown raised : FpFlags) :
    (s.leaveFlags shown raised).fpException = s.fpException := by
  simp [State.fpException, State.cr4OSXMMEXCPT]

/-- A readable form with an unmasked exception ends with #XM, or #UD, whatever the flag policy (R135). -/
theorem exec_of_unmasked {i : Instr} {s : State} (he : formEnabled s i.formOp = true) (hts : s.cr0TS = false)
    (hstop : operandStop s i.formOp = none) (hsuppress : suppressAll s i.formOp = false)
    (hunmasked : s.unmasked (raisedFlags s i.formOp) ≠ 0) :
    exec i s = raise s.fpException
      (s.leaveFlags (shownFlags s (raisedFlags s i.formOp)) (raisedFlags s i.formOp)) := by
  have hrespond := fpRespond_of_unmasked hunmasked
  rw [raisedFlags] at hrespond
  rw [exec_of_readable he hts hstop]
  simp only [computeForm, hsuppress, hrespond, leaveFlags_fpException, raisedFlags, Bool.false_eq_true, if_false]

/-- Settles O31: under `two_phase` the flags left are those that R136 shows. -/
theorem unmaskedExceptionFaults : Obligations.UnmaskedExceptionFaults := by
  intro i s he hts hstop hsuppress hpolicy hunmasked pre left
  refine ⟨rfl, rfl, rfl, ?_⟩
  rw [exec_of_unmasked he hts hstop hsuppress hunmasked, State.leaveFlags, hpolicy]
  rfl

/-- `t` is `s` after a fault that left some of the flags `raised`, the flags of `s` being sticky (R136, U7). -/
structure LeavesSomeFlags (s t : State) (raised : FpFlags) : Prop where
  frame : t = { s with mxcsr := t.mxcsr, freeCount := t.freeCount }
  flags : ∃ f : FpFlags, f &&& ~~~raised = 0 ∧ t.mxcsr = s.mxcsr ||| f.setWidth 32

theorem shownFlags_subset (s : State) (f : FpFlags) : shownFlags s f &&& ~~~f = 0 := by
  unfold shownFlags
  split
  · rw [BitVec.and_comm f, BitVec.and_assoc, BitVec.and_not_self]
    exact BitVec.and_zero
  · exact BitVec.and_not_self f

theorem freeFlags_subset (free f : FpFlags) : free &&& f &&& ~~~f = 0 := by
  rw [BitVec.and_assoc, BitVec.and_not_self]
  exact BitVec.and_zero

theorem leavesSomeFlags_leaveFlags (s : State) (f : FpFlags) :
    LeavesSomeFlags s (s.leaveFlags (shownFlags s f) f) f := by
  unfold State.leaveFlags
  split
  · exact ⟨rfl, _, shownFlags_subset s f, rfl⟩
  · exact ⟨rfl, _, freeFlags_subset _ f, rfl⟩

/-- Settles O32: under `any_subset` the flags left are the free value cut down to the raised flags. -/
theorem anySubsetFlagsBounded : Obligations.AnySubsetFlagsBounded := by
  intro i s he hts hstop hsuppress hpolicy hunmasked
  refine ⟨Config.freeFaultFlags s.freeCount &&& raisedFlags s i.formOp, freeFlags_subset _ _, ?_⟩
  rw [exec_of_unmasked he hts hstop hsuppress hunmasked, State.leaveFlags, hpolicy]
  rfl

/-! ## The state a fault leaves (R150) -/

/-- The ways an instruction ends with the exception `e` in state `u`. -/
inductive EndsInException (i : Instr) (s : State) : Exc → State → Prop where
  | disabled (he : formEnabled s i.formOp = false) : EndsInException i s .ud s
  | taskSwitched (he : formEnabled s i.formOp = true) (hts : s.cr0TS = true) : EndsInException i s .nm s
  | operand {e : Exc} {u : State} (h : operandStop s i.formOp = some (raise e u)) : EndsInException i s e u
  | unmasked (he : formEnabled s i.formOp = true) (hts : s.cr0TS = false) (hstop : operandStop s i.formOp = none)
      (hsuppress : suppressAll s i.formOp = false) (h : s.unmasked (raisedFlags s i.formOp) ≠ 0) :
      EndsInException i s s.fpException
        (s.leaveFlags (shownFlags s (raisedFlags s i.formOp)) (raisedFlags s i.formOp))

theorem endsInException_of_exec {i : Instr} {s u : State} {e : Exc} (h : exec i s = .fault (.exception e u)) :
    EndsInException i s e u := by
  cases he : formEnabled s i.formOp with
  | false =>
    cases (exec_of_disabled he).symm.trans h
    exact .disabled he
  | true =>
    cases hts : s.cr0TS with
    | true =>
      cases (exec_of_taskSwitched he hts).symm.trans h
      exact .taskSwitched he hts
    | false =>
      cases hstop : operandStop s i.formOp with
      | some r =>
        rw [exec_of_operandStop he hts hstop] at h
        rw [h] at hstop
        exact .operand hstop
      | none =>
        have hnoisy : ¬ fpQuiet s i.formOp = true := fun hquiet => by
          have hnext := execForm_next_iff.mpr ⟨⟨he, hts, hstop, hquiet⟩, rfl⟩
          rw [← exec_eq_execForm, h] at hnext
          cases hnext
        simp only [fpQuiet, Bool.or_eq_true, decide_eq_true_eq, not_or, Bool.not_eq_true] at hnoisy
        obtain ⟨hsuppress, hunmasked⟩ := hnoisy
        cases (exec_of_unmasked he hts hstop hsuppress hunmasked).symm.trans h
        exact .unmasked he hts hstop hsuppress hunmasked

/-- An exception of the operand read leaves the state before, with a fault of `Translate` recorded (R139). -/
theorem operandStop_exception {s u : State} {o : FormOp} {e : Exc} (h : operandStop s o = some (raise e u)) :
    ∃ a, u = s.recordFault e a := by
  obtain ⟨e', he', hr⟩ | ⟨e', a, hr⟩ | ⟨pa, hr⟩ | ⟨pa, hr⟩ | hr := operandStop_cases h
  · cases hr
    refine ⟨0, (State.recordFault_of_not_pf 0 fun c hc => ?_).symm⟩
    obtain rfl | rfl | rfl := he' <;> cases hc
  · cases hr
    exact ⟨a, rfl⟩
  · cases hr
  · cases hr
  · cases hr

/-- Before the lanes are computed an exception records a fault of `Translate` at most. -/
theorem exception_cases {i : Instr} {s u : State} {e : Exc} (h : exec i s = .fault (.exception e u)) :
    (∃ a, u = s.recordFault e a) ∨
      (LeavesSomeFlags s u (raisedFlags s i.formOp) ∧ (e = .xm ∨ e = .ud) ∧ ¬ Completes s i.formOp ∧
        formEnabled s i.formOp = true ∧ s.cr0TS = false ∧ operandStop s i.formOp = none) := by
  cases endsInException_of_exec h with
  | disabled => exact .inl ⟨0, rfl⟩
  | taskSwitched => exact .inl ⟨0, rfl⟩
  | operand hstop => exact .inl (operandStop_exception hstop)
  | unmasked he hts hstop hsuppress hunmasked =>
    refine .inr ⟨leavesSomeFlags_leaveFlags s _, ?_, fun hcomplete => ?_, he, hts, hstop⟩
    · unfold State.fpException
      split
      · exact .inl rfl
      · exact .inr rfl
    · obtain ⟨-, -, -, hquiet⟩ := hcomplete
      rw [fpQuiet, hsuppress, Bool.false_or, decide_eq_true_eq] at hquiet
      exact hunmasked hquiet

theorem mxcsr_or_flags_above (m : BitVec 32) (f : FpFlags) :
    (m ||| f.setWidth 32).extractLsb' 6 26 = m.extractLsb' 6 26 := by
  ext j hj
  simp

/-- Flags among the raised ones set nothing that all of them would not. -/
theorem mxcsr_or_flags_bounded (m : BitVec 32) {f g : FpFlags} (h : f &&& ~~~g = 0) :
    (m ||| f.setWidth 32) &&& ~~~(m ||| g.setWidth 32) = 0 := by
  apply BitVec.eq_of_getLsbD_eq
  intro j hj
  have hbit : (f &&& ~~~g).getLsbD j = false := by rw [h]; exact BitVec.getLsbD_zero
  have hf : f.getLsbD j = true → g.getLsbD j = true := fun hfj => by
    have hj6 := BitVec.lt_of_getLsbD hfj
    simpa [hfj, hj6] using hbit
  cases hm : m.getLsbD j <;> cases hfj : f.getLsbD j <;> simp_all

theorem LeavesSomeFlags.sameButFaultRecord {s t : State} {raised : FpFlags} (h : LeavesSomeFlags s t raised) :
    SameButFaultRecord s t := by
  obtain ⟨hframe, f, -, hf⟩ := h
  refine ⟨?_, ?_⟩
  · have hcr2 : t.cr2 = s.cr2 := by rw [hframe]
    rw [hcr2]
    exact hframe
  · rw [hf, mxcsr_or_flags_above]

theorem sameButFaultRecord_recordFault (s : State) (e : Exc) (a : Word64) : SameButFaultRecord s (s.recordFault e a) := by
  refine ⟨?_, by rw [State.recordFault_mxcsr]⟩
  cases e <;> rfl

/-- Settles O30: an exception either records a fault of `Translate`, or comes of an unmasked flag and leaves some of the raised
ones. -/
theorem faultLeavesState : Obligations.FaultLeavesState := by
  intro i s u e h
  obtain ⟨a, rfl⟩ | ⟨hleft, hcause⟩ := exception_cases h
  · refine ⟨sameButFaultRecord_recordFault s e a, fun he => ?_, ?_, ?_, fun hne => ?_⟩
    · rw [State.recordFault_of_not_pf a he]
    · rw [State.recordFault_mxcsr, BitVec.and_not_self]
    · rw [State.recordFault_mxcsr, mxcsr_or_flags_sticky]
    · exact absurd (State.recordFault_mxcsr s e a) hne
  · have hsame := hleft.sameButFaultRecord
    obtain ⟨hframe, f, hf, hmxcsr⟩ := hleft
    refine ⟨hsame, fun _ => ?_, ?_, ?_, fun _ => hcause⟩
    · rw [hframe]
    · rw [hmxcsr, mxcsr_or_flags_sticky]
    · rw [hmxcsr, mxcsr_or_flags_bounded _ hf]

end Sys2Proof.Machine
end

section
/-! PROOFS. The faults of the operand read (R143, R145), each where those ahead of it do not apply: the canonical check (O35),
page faults (O37), alignment (O38), and where nothing stops the read (O40). -/

namespace Sys2Proof.Machine

/-! ## The segment check -/

/-- In 64-bit mode the check passes exactly when every needed byte is canonical (R126). -/
theorem segmentFault_eq_none_of_is64 {s : State} (h64 : s.is64 = true) {g : Seg} {ea : Word64} {offs : List Nat} :
    segmentFault s g ea offs = none ↔ ∀ off ∈ offs, canonicalByte s g ea off = true := by
  cases offs with
  | nil => simp [segmentFault]
  | cons off offs => simp [segmentFault, h64]

theorem segmentFault_of_not_canonical {s : State} (h64 : s.is64 = true) {g : Seg} {ea : Word64} {offs : List Nat} {off : Nat}
    (hoff : off ∈ offs) (h : canonicalByte s g ea off = false) : segmentFault s g ea offs = some (segException g) := by
  have hneed : offs.isEmpty = false := List.isEmpty_eq_false_iff.mpr (List.ne_nil_of_mem hoff)
  have hall : offs.all (canonicalByte s g ea) = false := List.all_eq_false.mpr ⟨off, hoff, by simp [h]⟩
  simp only [segmentFault, hneed, h64, hall, Bool.false_eq_true, if_false, if_true]

/-- Outside 64-bit mode a readable segment allows the bytes at or below its limit (R126). -/
theorem segmentFault_of_within_limit {s : State} (h32 : s.is64 = false) {g : Seg} {ea : Word64} {offs : List Nat}
    (hnull : nullSelector (s.readSeg g) = false) (hreadable : (s.readSeg g).readable = true)
    (hlimit : ∀ off ∈ offs, ea.toNat + off ≤ (s.readSeg g).limit.toNat) : segmentFault s g ea offs = none := by
  have hall : (offs.all fun off => ea.toNat + off ≤ (s.readSeg g).limit.toNat) = true := by simpa using hlimit
  simp [segmentFault, h32, hnull, hreadable, hall]

theorem segmentFault_ss_or_gp {s : State} {g : Seg} {ea : Word64} {offs : List Nat} {e : Exc}
    (h : segmentFault s g ea offs = some e) : e = .ss ∨ e = .gp := by
  have hexc : segException g = .ss ∨ segException g = .gp := by
    unfold segException
    split
    · exact .inl rfl
    · exact .inr rfl
  unfold segmentFault at h
  split_ifs at h <;> cases h
  · exact hexc
  · exact .inr rfl
  · exact hexc

/-! ## Translation -/

theorem firstTranslationFault_eq_none {s : State} {acc : Access} {las : List Word64} :
    firstTranslationFault s acc las = none ↔ ∀ la ∈ las, ∃ pa, s.translate acc s.cpl la = .physical pa := by
  induction las with
  | nil => simp [firstTranslationFault]
  | cons la las ih =>
    rw [firstTranslationFault]
    cases ht : s.translate acc s.cpl la with
    | fault e a => simp [ht]
    | physical pa => simp [ht, ih]

theorem firstTranslationFault_some {s : State} {acc : Access} {las : List Word64} {e : Exc} {a : Word64}
    (h : firstTranslationFault s acc las = some (e, a)) : ∃ la ∈ las, s.translate acc s.cpl la = .fault e a := by
  induction las with
  | nil => cases h
  | cons la las ih =>
    unfold firstTranslationFault at h
    split at h
    next ht =>
      cases h
      exact ⟨la, List.mem_cons_self, ht⟩
    next =>
      obtain ⟨la', hmem, ht⟩ := ih h
      exact ⟨la', List.mem_cons_of_mem la hmem, ht⟩

/-- The first fault is that of the address which every one before it translates at (R147 row 8). -/
theorem firstTranslationFault_of_split {s : State} {acc : Access} {before after : List Word64} {la a : Word64} {e : Exc}
    (hbefore : ∀ b ∈ before, ∃ pa, s.translate acc s.cpl b = .physical pa) (h : s.translate acc s.cpl la = .fault e a) :
    firstTranslationFault s acc (before ++ la :: after) = some (e, a) := by
  induction before with
  | nil => simp [firstTranslationFault, h]
  | cons b before ih =>
    obtain ⟨⟨pa, hb⟩, hrest⟩ := List.forall_mem_cons.mp hbefore
    rw [List.cons_append, firstTranslationFault, hb]
    exact ih hrest

/-! ## The operand read, check by check -/

/-- The operand read gets past its address size and its segment check (R127, R143 (a)). -/
structure PassesSegment (s : State) (o : FormOp) (m : MemOperand) (bcst : Bool) : Prop where
  addressing : s.is64 = true ∨ o.pfx.contains .addressSize = false
  segment : segmentFault s (operandSeg o m) (effectiveAddress s o m bcst) (neededBytes s o bcst) = none

/-- The alignment check fails on the operand (R143 (b)). -/
def misaligned (s : State) (o : FormOp) (m : MemOperand) (bcst : Bool) : Bool :=
  alignmentFault s bcst (linearByte s (operandSeg o m) (effectiveAddress s o m bcst) 0) (neededBytes s o bcst)

/-- What stops an operand that translates: a device, then a hole (R41, R42). -/
def regionStop (s : State) (o : FormOp) (m : MemOperand) (bcst : Bool) : Option Result :=
  ((firstInRegion s .read .device (operandAddresses s o m bcst)).map fun pa => .refused (.deviceOperand pa)).or
    ((firstInRegion s .read .unmapped (neededAddresses s o m bcst)).map fun pa => .fault (.unmapped pa))

section
variable {s : State} {o : FormOp} {m : MemOperand} {bcst : Bool}

theorem misaligned_of_check_off (h : s.alignmentCheck = false) : misaligned s o m bcst = false := by
  simp [misaligned, alignmentFault, h]

/-- 16-bit addressing is refused ahead of every fault of the operand read (R127). -/
theorem memOperandStop_of_addressing16 (h32 : s.is64 = false) (hpfx : o.pfx.contains .addressSize = true) :
    memOperandStop s o m bcst = some (.refused .addressing16) := by
  simp only [memOperandStop, h32, hpfx, Bool.not_false, Bool.and_self, if_true]

/-- Past the segment check come alignment, translation and the address map, in this order (R147). -/
theorem memOperandStop_past_segment (h : PassesSegment s o m bcst) : memOperandStop s o m bcst =
    if misaligned s o m bcst then some (raise .ac s)
    else ((firstTranslationFault s .read (neededAddresses s o m bcst)).map fun f => raiseTranslation f.1 f.2 s).or
      (regionStop s o m bcst) := by
  obtain ⟨h16, hseg⟩ := h
  have hsize : (!s.is64 && o.pfx.contains .addressSize) = false := by
    obtain h64 | hpfx := h16
    · rw [h64, Bool.not_true, Bool.false_and]
    · rw [hpfx, Bool.and_false]
  simp only [memOperandStop, hsize, hseg, misaligned, regionStop, Bool.false_eq_true, if_false]
  refine if_congr Iff.rfl rfl ?_
  cases firstTranslationFault s .read (neededAddresses s o m bcst) with
  | some f => rfl
  | none =>
    cases firstInRegion s .read .device (operandAddresses s o m bcst) with
    | some pa => rfl
    | none => cases firstInRegion s .read .unmapped (neededAddresses s o m bcst) <;> rfl

theorem memOperandStop_of_misaligned (h : PassesSegment s o m bcst) (halign : misaligned s o m bcst = true) :
    memOperandStop s o m bcst = some (raise .ac s) := by
  rw [memOperandStop_past_segment h, if_pos halign]

theorem memOperandStop_of_translationFault {e : Exc} {a : Word64} (h : PassesSegment s o m bcst)
    (halign : misaligned s o m bcst = false)
    (hfault : firstTranslationFault s .read (neededAddresses s o m bcst) = some (e, a)) :
    memOperandStop s o m bcst = some (raiseTranslation e a s) := by
  rw [memOperandStop_past_segment h, halign, hfault]
  rfl

theorem memOperandStop_of_translated (h : PassesSegment s o m bcst) (halign : misaligned s o m bcst = false)
    (hfault : firstTranslationFault s .read (neededAddresses s o m bcst) = none) :
    memOperandStop s o m bcst = regionStop s o m bcst := by
  rw [memOperandStop_past_segment h, halign, hfault]
  rfl

/-- The operand read of an aligned operand ends in #AC only where `Translate` answers it. -/
theorem memOperandStop_ne_ac (halign : misaligned s o m bcst = false)
    (hac : ∀ la a, s.translate .read s.cpl la ≠ .fault .ac a) (u : State) :
    memOperandStop s o m bcst ≠ some (.fault (.exception .ac u)) := by
  intro h
  by_cases hpass : PassesSegment s o m bcst
  · cases hfault : firstTranslationFault s .read (neededAddresses s o m bcst) with
    | some f =>
      obtain ⟨e, a⟩ := f
      obtain ⟨la, -, hla⟩ := firstTranslationFault_some hfault
      rw [memOperandStop_of_translationFault hpass halign hfault] at h
      cases h
      exact hac la a hla
    | none =>
      rw [memOperandStop_of_translated hpass halign hfault, regionStop] at h
      cases hdev : firstInRegion s .read .device (operandAddresses s o m bcst) <;>
        cases hhole : firstInRegion s .read .unmapped (neededAddresses s o m bcst) <;> simp [hdev, hhole] at h
  · by_cases h16 : s.is64 = true ∨ o.pfx.contains .addressSize = false
    · cases hseg : segmentFault s (operandSeg o m) (effectiveAddress s o m bcst) (neededBytes s o bcst) with
      | none => exact hpass ⟨h16, hseg⟩
      | some e =>
        rw [memOperandStop_of_segmentFault h16 hseg] at h
        cases h
        obtain hss | hgp := segmentFault_ss_or_gp hseg
        · cases hss
        · cases hgp
    · rw [not_or, Bool.not_eq_true, Bool.not_eq_false] at h16
      obtain ⟨h32, hpfx⟩ := h16
      rw [memOperandStop_of_addressing16 h32 hpfx] at h
      cases h

end

/-! ## Canonical addresses, page faults and alignment -/

/-- A byte that runs past the top, or is at a non-canonical address, is not canonical (R121, R126). -/
theorem canonicalByte_eq_true {s : State} {g : Seg} {ea : Word64} {off : Nat} : canonicalByte s g ea off = true ↔
    (segBase s g + ea).toNat + off < 2 ^ 64 ∧ s.canonical (linearByte s g ea off) = true := by
  rw [canonicalByte, Bool.and_eq_true, decide_eq_true_eq]

/-- Settles O35: the canonical check comes ahead of the other faults of the operand read. -/
theorem nonCanonicalOperandFaults : Obligations.NonCanonicalOperandFaults := by
  intro i s m bcst off he hts h64 hm hoff _ _ hbad
  have hbyte : canonicalByte s (operandSeg i.formOp m) (effectiveAddress s i.formOp m bcst) off = false := by
    refine Bool.eq_false_iff.mpr fun hcan => ?_
    obtain ⟨htop, hcan⟩ := canonicalByte_eq_true.mp hcan
    obtain hnot | hpast := hbad
    · exact Bool.false_ne_true (hnot.symm.trans hcan)
    · omega
  exact exec_of_segmentFault he hts hm (.inl h64) (segmentFault_of_not_canonical h64 hoff hbyte)

/-- The W/R bit of every error code is 0: these accesses read (R138). -/
theorem pageFaultCode_bit1 (p rsvd : Bool) (acc : Access) (cpl : BitVec 2) (pk sgx : Bool) :
    (pageFaultCode p rsvd acc cpl pk sgx).getLsbD 1 = false := by
  cases acc <;> revert p rsvd cpl pk sgx <;> decide

/-- Settles O37: past the segment check the first byte that `Translate` faults on is the one reported. -/
theorem operandPageFault : Obligations.OperandPageFault := by
  intro i s m bcst before after la a c he hts hcheck hm h64 h32 hsplit hbefore hfault
  have hpass : PassesSegment s i.formOp m bcst := by
    cases hmode : s.is64 with
    | true => exact ⟨.inl hmode, (segmentFault_eq_none_of_is64 hmode).mpr (h64 hmode)⟩
    | false =>
      obtain ⟨hpfx, hnull, hreadable, hlimit⟩ := h32 hmode
      exact ⟨.inr hpfx, segmentFault_of_within_limit hmode hnull hreadable hlimit⟩
  have hfirst := firstTranslationFault_of_split (after := after) hbefore hfault
  rw [← hsplit] at hfirst
  refine ⟨?_, fun hrows => ?_⟩
  · exact exec_of_operandStop he hts ((operandStop_of_memOperand hm).trans
      (memOperandStop_of_translationFault hpass (misaligned_of_check_off hcheck) hfirst))
  · obtain ⟨ha, p, rsvd, pk, sgx, hc⟩ := translate_fault_of_noRows hrows hfault
    cases hc
    exact ⟨ha, pageFaultCode_bit1 ..⟩

theorem extractLsb'_zero_three_eq_zero (la : Word64) : la.extractLsb' 0 3 = 0#3 ↔ la.toNat % 8 = 0 := by
  rw [← BitVec.toNat_inj]
  simp

/-- A form ends in #AC only by the alignment check of its memory operand, or by `Translate` (R145). -/
theorem exec_ne_ac {i : Instr} {s : State} {m : MemOperand} {bcst : Bool} (hm : memOperand? i.formOp = some (m, bcst))
    (halign : misaligned s i.formOp m bcst = false) (hac : ∀ la a, s.translate .read s.cpl la ≠ .fault .ac a) (u : State) :
    exec i s ≠ .fault (.exception .ac u) := by
  intro h
  generalize he : Exc.ac = e at h
  cases endsInException_of_exec h with
  | disabled => cases he
  | taskSwitched => cases he
  | operand hstop =>
    subst he
    rw [operandStop_of_memOperand hm] at hstop
    exact memOperandStop_ne_ac halign hac u hstop
  | unmasked =>
    unfold State.fpException at he
    split at he <;> cases he

/-- Settles O38: the alignment check follows the segment check, and only a broadcast is checked. -/
theorem alignmentCheckedOnBroadcastOnly : Obligations.AlignmentCheckedOnBroadcastOnly := by
  intro i s m bcst he hts h32 hfull hm hac on
  have hon : s.alignmentCheck = true ↔ on := by
    simp only [State.alignmentCheck, Bool.and_eq_true, decide_eq_true_eq, and_assoc]
    rfl
  refine ⟨fun hb hchecked hneed hseg _ hla => ?_, fun hoff => exec_ne_ac hm ?_ hac⟩
  · subst hb
    have hpass : PassesSegment s i.formOp m true := by
      refine ⟨?_, hseg⟩
      cases hmode : s.is64 with
      | true => exact .inl rfl
      | false => exact .inr (h32 hmode)
    have halign : misaligned s i.formOp m true = true := by
      simp [misaligned, alignmentFault, hon.mpr hchecked, hneed, extractLsb'_zero_three_eq_zero, hla]
    exact exec_of_operandStop he hts ((operandStop_of_memOperand hm).trans (memOperandStop_of_misaligned hpass halign))
  · obtain rfl | hnot := hoff
    · simp [misaligned, alignmentFault, hfull]
    · exact misaligned_of_check_off (Bool.eq_false_iff.mpr fun hcheck => hnot (hon.mp hcheck))

/-! ## Where the operand can be read -/

section
variable {s : State} {o : FormOp} {m : MemOperand} {bcst : Bool}

/-- In 64-bit mode the operand read is a chain of checks, all of which must pass (R143, R145, R41, R42). -/
theorem memOperandStop_eq_none_iff (h64 : s.is64 = true) : memOperandStop s o m bcst = none ↔
    segmentFault s (operandSeg o m) (effectiveAddress s o m bcst) (neededBytes s o bcst) = none ∧
    misaligned s o m bcst = false ∧ firstTranslationFault s .read (neededAddresses s o m bcst) = none ∧
    firstInRegion s .read .device (operandAddresses s o m bcst) = none ∧
    firstInRegion s .read .unmapped (neededAddresses s o m bcst) = none := by
  cases hseg : segmentFault s (operandSeg o m) (effectiveAddress s o m bcst) (neededBytes s o bcst) with
  | some e => simp [memOperandStop_of_segmentFault (.inl h64) hseg]
  | none =>
    rw [memOperandStop_past_segment ⟨.inl h64, hseg⟩]
    cases misaligned s o m bcst <;> simp [regionStop]

theorem misaligned_eq_false_iff : misaligned s o m bcst = false ↔
    (s.alignmentCheck = true → neededBytes s o bcst ≠ [] → (bcst || s.cfg.acOnFullVector) = true →
      (linearByte s (operandSeg o m) (effectiveAddress s o m bcst) 0).extractLsb' 0 3 = 0#3) := by
  rw [← Bool.not_eq_true, misaligned, alignmentFault]
  simp only [Bool.and_eq_true, Bool.not_eq_true', List.isEmpty_eq_false_iff, bne_iff_ne]
  tauto

theorem regionKind_eq_ordinary_iff {map : List Region} {a : Nat} :
    regionKind map a = .ordinary ↔ regionKind map a ≠ .device ∧ regionKind map a ≠ .unmapped := by
  cases regionKind map a <;> simp

theorem mem_neededBytes_lt {off : Nat} (h : off ∈ neededBytes s o bcst) : off < operandSize o bcst :=
  List.mem_range.mp (List.mem_filter.mp h).1

/-- Nothing stops the operand read in 64-bit mode exactly when the operand is readable (R143, R145, R41). -/
theorem memOperandStop_eq_none_iff_readable (h64 : s.is64 = true) :
    memOperandStop s o m bcst = none ↔ Readable64 s o m bcst := by
  rw [memOperandStop_eq_none_iff h64, segmentFault_eq_none_of_is64 h64, misaligned_eq_false_iff,
    firstTranslationFault_eq_none, firstInRegion_device_eq_none, firstInRegion_eq_none, neededAddresses,
    List.forall_mem_map, List.forall_mem_map]
  simp only [canonicalByte_eq_true]
  constructor
  · rintro ⟨hseg, halign, htrans, hdev, hhole⟩
    refine ⟨fun off hoff => ?_, hdev, halign⟩
    obtain ⟨htop, hcan⟩ := hseg off hoff
    obtain ⟨pa, hpa⟩ := htrans off hoff
    refine ⟨htop, hcan, pa, hpa, regionKind_eq_ordinary_iff.mpr ⟨fun hkind => ?_, hhole off hoff pa hpa⟩⟩
    have hallows : segmentAllows s (operandSeg o m) (effectiveAddress s o m bcst) off = true := by
      rw [segmentAllows, if_pos h64]
      exact canonicalByte_eq_true.mpr ⟨htop, hcan⟩
    exact hdev off (mem_neededBytes_lt hoff) ⟨hallows, pa, hpa, hkind⟩
  · rintro ⟨hneed, hdev, halign⟩
    refine ⟨fun off hoff => ?_, halign, fun off hoff => ?_, hdev, fun off hoff pa hpa => ?_⟩
    all_goals obtain ⟨htop, hcan, pa', hpa', hkind⟩ := hneed off hoff
    · exact ⟨htop, hcan⟩
    · exact ⟨pa', hpa'⟩
    · cases hpa'.symm.trans hpa
      exact (regionKind_eq_ordinary_iff.mp hkind).2

end

/-- Settles O40: the operand read is a chain of checks; past those of R143 a byte in a device region makes it a refusal. -/
theorem operandReadableExactly : Obligations.OperandReadableExactly := by
  refine ⟨fun s o m bcst h64 hm => ?_, fun s o m bcst off hm h32 hseg hcheck hfault hoff hdev => ?_⟩
  · rw [operandStop_of_memOperand hm]
    exact memOperandStop_eq_none_iff_readable h64
  · have hpass : PassesSegment s o m bcst := by
      refine ⟨?_, hseg⟩
      cases hmode : s.is64 with
      | true => exact .inl rfl
      | false => exact .inr (h32 hmode)
    rw [operandStop_of_memOperand hm, memOperandStop_of_translated hpass (misaligned_of_check_off hcheck) hfault, regionStop]
    cases hfound : firstInRegion s .read .device (operandAddresses s o m bcst) with
    | none => exact absurd hdev (firstInRegion_device_eq_none.mp hfound off hoff)
    | some pa => exact ⟨pa, rfl, (firstInRegion_some hfound).1⟩

end Sys2Proof.Machine
end

section
/-! PROOFS. Taking an exception through a gate: the error code of a page fault (O58), the handler's state (O53), the frame in
memory (O54), and the return that undoes it (O55). -/

namespace Sys2Proof.Machine

/-! ## The error code of a page fault (R138) -/

/-- A page that faults does so at the address accessed, and sets `RSVD`, `PK` or `SGX` only for its own cause. -/
theorem accessPage_fault {p : Page} {acc : Access} {cpl : BitVec 2} {la a : Word64} {e : Exc}
    (h : accessPage p acc cpl la = .fault e a) : a = la ∧ ∃ rsvd pk sgx,
      e = .pf (pageFaultCode p.present rsvd acc cpl pk sgx) ∧ (rsvd = true → p.reserved = true) ∧
      (pk = true → p.keyDenied = true ∧ acc = .read) ∧ (sgx = true → p.sgxDenied = true) := by
  simp only [accessPage] at h
  split_ifs at h with hpresent hreserved huser hfetch hkey hsgx <;> cases h <;> refine ⟨rfl, _, _, _, rfl, ?_⟩
  · exact ⟨nofun, nofun, nofun⟩
  · exact ⟨fun _ => hreserved, nofun, nofun⟩
  · exact ⟨nofun, nofun, nofun⟩
  · exact ⟨nofun, nofun, nofun⟩
  · exact ⟨nofun, fun _ => hkey.symm, nofun⟩
  · exact ⟨nofun, nofun, fun _ => hsgx⟩

/-- Each fact of R138 stands in its place of the error code, and nothing else is set. -/
theorem pageFaultCode_bits (p rsvd : Bool) (acc : Access) (cpl : BitVec 2) (pk sgx : Bool) :
    let c := pageFaultCode p rsvd acc cpl pk sgx
    c.getLsbD 0 = p ∧ c.getLsbD 2 = decide (cpl = 3#2) ∧ c.getLsbD 3 = rsvd ∧ c.getLsbD 4 = decide (acc = .fetch) ∧
      c.getLsbD 5 = pk ∧ c.getLsbD 15 = sgx ∧ c &&& 0xFFFF7FC0#32 = 0 := by
  cases acc <;> revert p rsvd cpl pk sgx <;> decide

/-- Settles O58: for a listed page `Translate` is the access to that page. -/
theorem pageFaultErrorCodeBits : Obligations.PageFaultErrorCodeBits := by
  intro s p acc cpl la a c hpaging hrow hpage hfault
  simp only [State.translate, hpaging, hrow, hpage, if_true] at hfault
  obtain ⟨ha, rsvd, pk, sgx, hc, hrsvd, hpk, hsgx⟩ := accessPage_fault hfault
  cases hc
  obtain ⟨h0, h2, h3, h4, h5, h15, hrest⟩ := pageFaultCode_bits p.present rsvd acc cpl pk sgx
  exact ⟨ha, h0, pageFaultCode_bit1 .., h2, h4, fun h => hrsvd (h3 ▸ h), fun h => hpk (h5 ▸ h),
    fun h => hsgx (h15 ▸ h), hrest⟩

/-! ## The bytes a store writes -/

theorem ofNat_succ_add (la : Word64) (k : Nat) : la + BitVec.ofNat 64 (k + 1) = la + 1 + BitVec.ofNat 64 k := by
  rw [BitVec.ofNat_add, BitVec.add_assoc, BitVec.add_comm (BitVec.ofNat 64 k)]
  rfl

/-- A byte at `la` can be stored by the data rights of `cpl`: canonical, translated, ordinary memory (R149). -/
def Storable (cpl : BitVec 2) (s : State) (la : Word64) : Prop :=
  s.canonical la = true ∧ ∃ pa, s.translate .read cpl la = .physical pa ∧ regionKind s.cfg.addressMap pa.toNat = .ordinary

section
variable {cpl : BitVec 2} {n : Nat} {s t : State} {la w : Word64} (h : storeBytes cpl n s la w = some t)
include h

theorem storeBytes_storable {k : Nat} (hk : k < n) : Storable cpl s (la + BitVec.ofNat 64 k) := by
  induction n generalizing s la w k with
  | zero => cases hk
  | succ n ih =>
    obtain ⟨u, hu, ht⟩ := Option.bind_eq_some_iff.mp h
    obtain ⟨pa, hcan, hp, hkind, rfl⟩ := storeByte_cases hu
    cases k with
    | zero =>
      rw [BitVec.add_zero]
      exact ⟨hcan, pa, hp, hkind⟩
    | succ k =>
      rw [ofNat_succ_add]
      exact ih ht (Nat.lt_of_succ_lt_succ hk)

/-- Where no two of the bytes are one physical byte, each of them is in memory after the store, the lowest first. -/
theorem storeBytes_memRead (hwf : Memory.wf s.mem = true)
    (hinj : ∀ k k' pa, k < n → k' < n → s.translate .read cpl (la + BitVec.ofNat 64 k) = .physical pa →
      s.translate .read cpl (la + BitVec.ofNat 64 k') = .physical pa → k = k')
    {k : Nat} (hk : k < n) {pa : Word64} (hpa : s.translate .read cpl (la + BitVec.ofNat 64 k) = .physical pa) :
    memRead t.mem pa.toNat = w.extractLsb' (8 * k) 8 := by
  induction n generalizing s la w k with
  | zero => cases hk
  | succ n ih =>
    obtain ⟨u, hu, ht⟩ := Option.bind_eq_some_iff.mp h
    obtain ⟨pa0, -, hp, -, rfl⟩ := storeByte_cases hu
    cases k with
    | zero =>
      rw [BitVec.add_zero] at hpa
      cases hp.symm.trans hpa
      refine (storeBytes_memRead_other ht fun k' hk' pa' hpa' heq => ?_).trans
        ((memRead_memWrite_same hwf _ _).trans (BitVec.setWidth_eq_extractLsb' (by decide)))
      rw [BitVec.eq_of_toNat_eq heq] at hpa'
      have hsame := hinj 0 (k' + 1) pa (Nat.zero_lt_succ n) (Nat.succ_lt_succ hk') (by rwa [BitVec.add_zero])
        (by rw [ofNat_succ_add]; exact hpa')
      omega
    | succ k =>
      rw [ofNat_succ_add] at hpa
      refine (ih ht (memWrite_wf hwf _ pa0.isLt) (fun j j' pa hj hj' hp hp' => ?_) (Nat.lt_of_succ_lt_succ hk) hpa).trans ?_
      · exact Nat.succ_injective (hinj (j + 1) (j' + 1) pa (Nat.succ_lt_succ hj) (Nat.succ_lt_succ hj')
          (by rw [ofNat_succ_add]; exact hp) (by rw [ofNat_succ_add]; exact hp'))
      · ext i hi
        simp [show 8 + (8 * k + i) = 8 * (k + 1) + i by omega]

end

/-! ## The words a push writes -/

/-- The address of byte `i` of the word pushed as number `n` below `sp`. -/
def pushedByte (sp : Word64) (n i : Nat) : Word64 := sp - BitVec.ofNat 64 (8 * (n + 1)) + BitVec.ofNat 64 i

theorem pushedByte_succ (sp : Word64) (n i : Nat) : pushedByte sp (n + 1) i = pushedByte (sp - 8) n i := by
  unfold pushedByte
  bv_omega

section
variable {cpl : BitVec 2} {ws : List Word64} {sp sp' : Word64} {s t : State} (h : pushWords cpl ws sp s = some (sp', t))
include h

theorem pushWords_storable {n i : Nat} (hn : n < ws.length) (hi : i < 8) : Storable cpl s (pushedByte sp n i) := by
  induction ws generalizing sp s n with
  | nil => cases hn
  | cons w ws ih =>
    obtain ⟨u, hu, ht⟩ := Option.bind_eq_some_iff.mp h
    cases n with
    | zero => exact storeBytes_storable hu hi
    | succ n =>
      rw [pushedByte_succ]
      rw [storeBytes_frame hu] at ht
      exact ih ht (Nat.lt_of_succ_lt_succ hn)

/-- A push leaves every physical byte alone that no byte of its words is. -/
theorem pushWords_memRead_other {a : Nat} (ha : ∀ n i, n < ws.length → i < 8 → ∀ pa : Word64,
      s.translate .read cpl (pushedByte sp n i) = .physical pa → pa.toNat ≠ a) :
    memRead t.mem a = memRead s.mem a := by
  induction ws generalizing sp s with
  | nil => cases h; rfl
  | cons w ws ih =>
    obtain ⟨u, hu, ht⟩ := Option.bind_eq_some_iff.mp h
    have hfirst : memRead u.mem a = memRead s.mem a :=
      storeBytes_memRead_other hu fun i hi pa hpa => ha 0 i (Nat.zero_lt_succ _) hi pa hpa
    refine (ih ht fun n i hn hi pa hpa => ?_).trans hfirst
    rw [storeBytes_frame hu] at hpa
    exact ha (n + 1) i (Nat.succ_lt_succ hn) hi pa (by rw [pushedByte_succ]; exact hpa)

/-- Where no two bytes of the words are one physical byte, each word is in memory after the push. -/
theorem pushWords_memRead (hwf : Memory.wf s.mem = true)
    (hinj : ∀ n i n' i' pa, n < ws.length → n' < ws.length → i < 8 → i' < 8 →
      s.translate .read cpl (pushedByte sp n i) = .physical pa →
      s.translate .read cpl (pushedByte sp n' i') = .physical pa → n = n' ∧ i = i')
    {n i : Nat} (hn : n < ws.length) (hi : i < 8) {pa : Word64}
    (hpa : s.translate .read cpl (pushedByte sp n i) = .physical pa) :
    memRead t.mem pa.toNat = ws[n].extractLsb' (8 * i) 8 := by
  induction ws generalizing sp s n with
  | nil => cases hn
  | cons w ws ih =>
    obtain ⟨u, hu, ht⟩ := Option.bind_eq_some_iff.mp h
    have htranslate : u.translate = s.translate := by
      rw [storeBytes_frame hu]
      rfl
    cases n with
    | zero =>
      have hword : memRead u.mem pa.toNat = w.extractLsb' (8 * i) 8 :=
        storeBytes_memRead hu hwf (fun k k' pa' hk hk' hp hp' =>
          (hinj 0 k 0 k' pa' (Nat.zero_lt_succ _) (Nat.zero_lt_succ _) hk hk' hp hp').2) hi hpa
      refine (pushWords_memRead_other ht fun n' i' hn' hi' pa' hpa' heq => ?_).trans hword
      rw [BitVec.eq_of_toNat_eq heq, htranslate, ← pushedByte_succ] at hpa'
      obtain ⟨hzero, -⟩ := hinj 0 i (n' + 1) i' pa (Nat.zero_lt_succ _) (Nat.succ_lt_succ hn') hi hi' hpa hpa'
      omega
    | succ n =>
      rw [pushedByte_succ, ← htranslate] at hpa
      refine ih ht (storeBytes_wf hu hwf) (fun j k j' k' pa' hj hj' hk hk' hp hp' => ?_) (Nat.lt_of_succ_lt_succ hn) hpa
      rw [htranslate, ← pushedByte_succ] at hp hp'
      obtain ⟨hjj, hkk⟩ := hinj (j + 1) k (j' + 1) k' pa' (Nat.succ_lt_succ hj) (Nat.succ_lt_succ hj') hk hk' hp hp'
      exact ⟨Nat.succ_injective hjj, hkk⟩

end

/-! ## The handler's state (R149) -/

theorem exceptionFrame_eq (s : State) (e : Exc) : s.exceptionFrame e =
    [s.ss.selector.setWidth 64, s.readGpr 4#4, s.rflags, s.cs.selector.setWidth 64, s.rip] ++
      (excErrorCode e).toList.map (·.setWidth 64) := by
  unfold State.exceptionFrame
  cases excErrorCode e <;> rfl

/-- The bytes of the frame: eight of an error code besides forty. -/
def frameSize (e : Exc) : Nat := if (excErrorCode e).isSome then 48 else 40

theorem length_exceptionFrame (s : State) (e : Exc) : 8 * (s.exceptionFrame e).length = frameSize e := by
  rw [exceptionFrame_eq, frameSize]
  cases excErrorCode e <;> rfl

/-- The frame, word by word from its stack down, is the bytes from the new stack pointer up. -/
theorem pushedByte_eq_above {sp : Word64} {size n i : Nat} (hn : 8 * (n + 1) ≤ size) :
    pushedByte sp n i = sp - BitVec.ofNat 64 size + BitVec.ofNat 64 (size - 8 * (n + 1) + i) := by
  obtain ⟨d, rfl⟩ := Nat.exists_eq_add_of_le hn
  rw [pushedByte, Nat.add_sub_cancel_left, BitVec.ofNat_add, BitVec.ofNat_add]
  generalize BitVec.ofNat 64 (8 * (n + 1)) = x
  generalize BitVec.ofNat 64 d = y
  generalize BitVec.ofNat 64 i = z
  bv_omega

theorem handlerFlags_getLsbD (g : Gate) (f : BitVec 64) (n : Nat) : (handlerFlags g f).getLsbD n =
    (f.getLsbD n && !(n == 8 || n == 14 || n == 16 || n == 17 || (n == 9 && g.interrupt))) := by
  by_cases hn : n < 64
  · have hmask (b : Bool) : ∀ n < 64, (0x34100#64 ||| if b then 0x200#64 else 0).getLsbD n =
        (n == 8 || n == 14 || n == 16 || n == 17 || (n == 9 && b)) := by
      cases b <;> decide
    rw [handlerFlags, BitVec.getLsbD_and, BitVec.getLsbD_not, hmask _ n hn, decide_eq_true hn, Bool.true_and]
  · rw [BitVec.getLsbD_of_ge _ _ (Nat.le_of_not_lt hn), BitVec.getLsbD_of_ge _ _ (Nat.le_of_not_lt hn), Bool.false_and]

theorem deliveryStack_of_ist_zero {s : State} {g : Gate} (h : g.ist = 0#3) : s.deliveryStack g =
    (if g.cs.selector.extractLsb' 0 2 ≠ s.cpl then s.rsp0 else s.readGpr 4#4) &&& ~~~15#64 := by
  rw [State.deliveryStack, dif_pos h]

theorem deliveryStack_of_ist_succ {s : State} {g : Gate} {n : Fin 7} (h : g.ist.toNat = n.val + 1) :
    s.deliveryStack g = s.ist[n] &&& ~~~15#64 := by
  have hne : g.ist ≠ 0#3 := fun h0 => by simp [h0] at h
  simp only [State.deliveryStack, dif_neg hne, h, Nat.add_sub_cancel]
  rfl

theorem readGpr_enterHandler_self (s : State) (g : Gate) (sp : Word64) : (s.enterHandler g sp).readGpr 4#4 = sp := by
  simp [State.readGpr]

theorem readGpr_enterHandler_other (s : State) (g : Gate) (sp : Word64) {r : GReg} (h : r ≠ 4#4) :
    (s.enterHandler g sp).readGpr r = s.readGpr r := by
  have hne : 4 ≠ r.toNat := fun he => h (BitVec.eq_of_toNat_eq he.symm)
  simp [State.readGpr, Vector.getElem_set_ne, hne]

theorem ss_enterHandler_of_same_level {s : State} {g : Gate} (h : g.cs.selector.extractLsb' 0 2 = s.cpl) (sp : Word64) :
    (s.enterHandler g sp).ss = s.ss := by
  simp [State.enterHandler, h]

/-- Settles O53: the pushes write the bytes of the frame alone, and entering the handler writes what the gate loads. -/
theorem deliveredExceptionEntersHandler : Obligations.DeliveredExceptionEntersHandler := by
  intro s t e h
  obtain ⟨g, sp, u, -, hgate, hpush, rfl⟩ := takeException_next h
  obtain ⟨hframe, hsp, -⟩ := pushWords_cases hpush
  have hother (a : Nat) (ha : ∀ n, n < frameSize e → ∀ pa : Word64,
      s.translate .read (g.cs.selector.extractLsb' 0 2)
        (s.deliveryStack g - BitVec.ofNat 64 (frameSize e) + BitVec.ofNat 64 n) = .physical pa → pa.toNat ≠ a) :
      memRead u.mem a = memRead s.mem a := by
    have hlen := length_exceptionFrame s e
    refine pushWords_memRead_other hpush fun n i hn hi pa hpa => ?_
    rw [pushedByte_eq_above (size := frameSize e) (by omega)] at hpa
    exact ha _ (by omega) pa hpa
  rw [length_exceptionFrame] at hsp
  refine ⟨g, hgate, rfl, rfl, rfl, fun n => ?_, ⟨fun hist hsame => ?_, fun hist hchange => ?_,
    fun n hn => deliveryStack_of_ist_succ hn, ?_, hother, fun hsame => ?_⟩, fun r hr => ?_, ?_⟩
  · rw [State.enterHandler_rflags, handlerFlags_getLsbD, hframe]
  · rw [deliveryStack_of_ist_zero hist, if_neg (not_not_intro hsame)]
  · rw [deliveryStack_of_ist_zero hist, if_pos hchange]
  · rw [readGpr_enterHandler_self, hsp]
    rfl
  · have hlevel : g.cs.selector.extractLsb' 0 2 = u.cpl := by
      rw [hframe]
      exact hsame
    rw [ss_enterHandler_of_same_level hlevel, hframe]
  · rw [readGpr_enterHandler_other _ _ _ hr, hframe]
    rfl
  · rw [hframe]
    exact ⟨rfl, rfl, rfl, rfl, rfl, rfl, rfl, rfl, rfl, rfl, rfl, rfl, rfl⟩

/-- Settles O54: what delivery pushes is the frame, from the chosen stack down. -/
theorem deliveredFrameInMemory : Obligations.DeliveredFrameInMemory := by
  intro s t e g hwf h hgate cpl frame at'
  obtain ⟨g', sp, u, -, hgate', hpush, rfl⟩ := takeException_next h
  cases hgate.symm.trans hgate'
  rw [exceptionFrame_eq] at hpush
  exact ⟨fun n i hn hi => pushWords_storable hpush hn hi,
    fun hinj n i pa hn hi hpa => pushWords_memRead hpush hwf hinj hn hi hpa⟩

/-! ## The return (R151) -/

/-- A word is its eight bytes, the lowest first. -/
theorem word_of_bytes (w : Word64) : w.extractLsb' 56 8 ++ w.extractLsb' 48 8 ++ w.extractLsb' 40 8 ++ w.extractLsb' 32 8 ++
    w.extractLsb' 24 8 ++ w.extractLsb' 16 8 ++ w.extractLsb' 8 8 ++ w.extractLsb' 0 8 = w := by
  apply BitVec.eq_of_getLsbD_eq
  intro j hj
  simp only [BitVec.getLsbD_append, BitVec.getLsbD_extractLsb']
  interval_cases j <;> rfl

theorem readQword_of_bytes {s : State} {la w : Word64}
    (h : ∀ i, i < 8 → s.readLinear .read (la + BitVec.ofNat 64 i) = w.extractLsb' (8 * i) 8) : s.readQword la = w := by
  have hlowest := h 0 (by omega)
  rw [BitVec.add_zero] at hlowest
  rw [← word_of_bytes w, ← h 7 (by omega), ← h 6 (by omega), ← h 5 (by omega), ← h 4 (by omega), ← h 3 (by omega),
    ← h 2 (by omega), ← h 1 (by omega), ← hlowest]
  rfl

/-- Bytes of pushed words that are one address are one byte of one word. -/
theorem pushedByte_injective {sp : Word64} {n i n' i' : Nat} (hn : n < 6) (hn' : n' < 6) (hi : i < 8) (hi' : i' < 8)
    (h : pushedByte sp n i = pushedByte sp n' i') : n = n' ∧ i = i' := by
  rw [pushedByte_eq_above (size := 48) (by omega), pushedByte_eq_above (size := 48) (by omega), BitVec.add_right_inj] at h
  have hoff := congrArg BitVec.toNat h
  simp only [BitVec.toNat_ofNat] at hoff
  omega

/-- The eight bytes at `la` can be read, and are the word `w`. -/
structure QwordAt (t : State) (la w : Word64) : Prop where
  readable : t.canReadQword la = true
  value : t.readQword la = w

/-- Under the identity translation the handler can read every word of the frame, as it was pushed. -/
theorem delivered_qwordAt {s t : State} {e : Exc} {g : Gate}
    (hid : s.cfg.translation = { rows := [], pages := [], unlisted := .identity })
    (hwf : Memory.wf s.mem = true) (h : takeException e s = .next t) (hgate : s.gateFor e = some g) {n : Nat}
    (hn : n < (s.exceptionFrame e).length) :
    QwordAt t (s.deliveryStack g - BitVec.ofNat 64 (8 * (n + 1))) (s.exceptionFrame e)[n] := by
  obtain ⟨g', sp, u, -, hgate', hpush, rfl⟩ := takeException_next h
  cases hgate.symm.trans hgate'
  obtain ⟨hframe, -, -⟩ := pushWords_cases hpush
  have hcfg : (u.enterHandler g sp).cfg = s.cfg := by rw [State.enterHandler_cfg, hframe]
  have hcanonical : (u.enterHandler g sp).canonical = s.canonical := by
    rw [hframe]
    rfl
  have hlinear (acc : Access) (cpl : BitVec 2) (la : Word64) : (u.enterHandler g sp).translate acc cpl la = .physical la :=
    translate_identity (hcfg ▸ hid) acc cpl la
  have hlength : (s.exceptionFrame e).length ≤ 6 := by
    have hbytes := length_exceptionFrame s e
    have hsize : frameSize e ≤ 48 := by
      unfold frameSize
      split <;> omega
    omega
  constructor
  · simp only [State.canReadQword, List.all_eq_true, List.mem_range, Bool.and_eq_true, hlinear, hcanonical, hcfg,
      decide_eq_true_eq]
    intro i hi
    obtain ⟨hcan, pa, hpa, hkind⟩ := pushWords_storable hpush hn hi
    rw [translate_identity hid] at hpa
    cases hpa
    exact ⟨hcan, hkind⟩
  · refine readQword_of_bytes fun i hi => ?_
    rw [State.readLinear, hlinear]
    refine pushWords_memRead hpush hwf (fun j k j' k' pa hj hj' hk hk' hp hp' => ?_) hn hi (translate_identity hid ..)
    rw [translate_identity hid] at hp hp'
    exact pushedByte_injective (by omega) (by omega) hk hk' (Translated.physical.inj (hp.trans hp'.symm))

/-- The return pops five words from the stack pointer up: `RIP`, `CS`, `RFLAGS`, `RSP`, `SS` (R151). -/
theorem returnFromException_of_words {t : State} {sp rip cs rflags rsp ss : Word64} (hsp : t.readGpr 4#4 = sp)
    (hrip : QwordAt t sp rip) (hcs : QwordAt t (sp + 8) cs) (hrflags : QwordAt t (sp + 16) rflags)
    (hrsp : QwordAt t (sp + 24) rsp) (hss : QwordAt t (sp + 32) ss) :
    t.returnFromException = some { t with
      rip := rip, ripPast := false, cs := { t.cs with selector := cs.setWidth 16 }, rflags := rflags,
      gpr := t.gpr.set 4 rsp, ss := { t.ss with selector := ss.setWidth 16 } } := by
  have hall : ([0, 8, 16, 24, 32].all fun d => t.canReadQword (sp + d)) = true := by
    simp only [List.all_cons, List.all_nil, hcs.readable, hrflags.readable, hrsp.readable, hss.readable, Bool.and_true]
    exact (congrArg t.canReadQword (BitVec.add_zero sp)).trans hrip.readable
  rw [State.returnFromException]
  simp only [hsp, hall, if_true, hrip.value, hcs.value, hrflags.value, hrsp.value, hss.value]

theorem selector_of_pushed (x : BitVec 16) : (x.setWidth 64).setWidth 16 = x := by simp

/-- Settles O55: the five words lie, readable, from the handler's stack pointer up, and the return pops them. -/
theorem exceptionReturnRestores : Obligations.ExceptionReturnRestores := by
  intro s t e hcode hid hwf h
  obtain ⟨g, sp, u, -, hgate, hpush, ht⟩ := takeException_next h
  obtain ⟨hframe, hsp, -⟩ := pushWords_cases hpush
  have hwords : s.exceptionFrame e =
      [s.ss.selector.setWidth 64, s.readGpr 4#4, s.rflags, s.cs.selector.setWidth 64, s.rip] := by
    rw [exceptionFrame_eq, hcode]
    rfl
  have hqword (n : Nat) (hn : n < (s.exceptionFrame e).length) := delivered_qwordAt hid hwf h hgate hn
  simp only [hwords] at hqword hsp
  have habove (n d : Nat) (hd : 8 * (n + 1) + d = 40) :
      s.deliveryStack g - BitVec.ofNat 64 (8 * (n + 1)) = sp + BitVec.ofNat 64 d := by
    obtain rfl : d = 40 - 8 * (n + 1) := by omega
    rw [hsp]
    simpa [pushedByte] using pushedByte_eq_above (sp := s.deliveryStack g) (size := 40) (n := n) (i := 0) (by omega)
  have hreturn := returnFromException_of_words (t := t) (sp := sp) (ht ▸ readGpr_enterHandler_self u g sp)
    (BitVec.add_zero sp ▸ habove 4 0 rfl ▸ hqword 4 (by simp)) (habove 3 8 rfl ▸ hqword 3 (by simp))
    (habove 2 16 rfl ▸ hqword 2 (by simp)) (habove 1 24 rfl ▸ hqword 1 (by simp))
    (habove 0 32 rfl ▸ hqword 0 (by simp))
  refine ⟨_, hreturn, rfl, rfl, ?_, ?_, ?_, ?_, ?_⟩
  · rw [ht, hframe]
    simp [State.readGpr]
  · exact selector_of_pushed s.cs.selector
  · exact selector_of_pushed s.ss.selector
  · rw [ht, hframe]
    rfl
  · rw [ht, hframe]
    rfl

end Sys2Proof.Machine
end

section
/-! PROOFS. Debug exceptions: breakpoints on the instruction and on its operand, and single step (O56). -/

namespace Sys2Proof.Machine

/-! ## The bits of `DR6` -/

theorem getLsbD_hitBits (p : Nat → Bool) (n : Fin 4) : (hitBits p).getLsbD n = p n := by
  simp only [hitBits, BitVec.getLsbD_setWidth, BitVec.getLsbD_append, BitVec.getLsbD_ofBool]
  match n with
  | 0 | 1 | 2 | 3 => simp

/-- Breakpoint `n` is marked where it is armed for instructions and holds the instruction's address (R157). -/
theorem getLsbD_codeHits {s : State} {n : Fin 4} (hon : s.drEnabled n = true) (hkind : s.drKind n = 0b00#2)
    (hpast : s.ripPast = false) (haddr : s.drAddress n = codeAddress s 0) : (codeHits s).getLsbD n = true := by
  simp [codeHits, getLsbD_hitBits, hon, hkind, hpast, haddr]

theorem any_readAddresses {s : State} {o : FormOp} {p : Word64 → Bool} : (readAddresses s o).any p = true ↔
    ∃ m bcst, memOperand? o = some (m, bcst) ∧ ∃ la ∈ neededAddresses s o m bcst, p la = true := by
  unfold readAddresses
  cases memOperand? o with
  | none => simp
  | some mb =>
    obtain ⟨m, bcst⟩ := mb
    rw [List.any_eq_true]
    constructor
    · exact fun h => ⟨m, bcst, rfl, h⟩
    · rintro ⟨m', bcst', hm, h⟩
      cases hm
      exact h

/-- Breakpoint `n` is marked where it is armed for reads and covers a needed byte of the operand (R157). -/
theorem getLsbD_dataHits {s : State} {o : FormOp} {n : Fin 4} : (dataHits s o).getLsbD n = true ↔
    s.drEnabled n = true ∧ s.drKind n = 0b11#2 ∧ ∃ m bcst, memOperand? o = some (m, bcst) ∧
      ∃ la ∈ neededAddresses s o m bcst, s.drCovers n la = true := by
  rw [dataHits, getLsbD_hitBits, Bool.and_eq_true, Bool.and_eq_true, decide_eq_true_eq, any_readAddresses, and_assoc]

/-! ## The step under a breakpoint or single step -/

theorem step_of_codeHits {s : State} (h : codeHits s ≠ 0) :
    step s = takeException .db { s with dr6 := s.dr6 ||| codeHits s } := by
  rw [step, stepInstr, if_neg h]
  rfl

section
variable {s t : State} {i : Instr} (hc : codeHits s = 0) (hf : fetch s = .instr i) (hx : exec i s = .next t)
include hc hf hx

/-- A cause of a trap takes #DB from the next state of the form. -/
theorem step_of_trap (h : dataHits s i.formOp ||| stepBit s ≠ 0) :
    step s = takeException .db { t with dr6 := t.dr6 ||| dataHits s i.formOp ||| stepBit s } := by
  rw [step, stepInstr_instr hc hf, hx, debugTrap, if_neg h]
  rfl

theorem step_of_no_trap (h : dataHits s i.formOp ||| stepBit s = 0) : step s = .next t := by
  rw [step, stepInstr_instr hc hf, hx, debugTrap, if_pos h]
  rfl

end

theorem stepBit_of_not_flagTF {s : State} (h : s.flagTF = false) : stepBit s = 0#64 := by simp [stepBit, h]

theorem stepBit_of_flagTF {s : State} (h : s.flagTF = true) : stepBit s = 0x4000 := by simp [stepBit, h]

theorem or_stepBit_ne_zero (hits : BitVec 64) : hits ||| 0x4000#64 ≠ 0 := fun h => by
  have hbit := congrArg (BitVec.getLsbD · 14) h
  simp at hbit

/-- Settles O56: the step tests instruction breakpoints first, and a completed form's trap by its data hits and `EFLAGS.TF`. -/
theorem debugExceptions : Obligations.DebugExceptions := by
  intro s
  constructor
  · intro n hon hkind hpast haddr
    have hbit := getLsbD_codeHits hon hkind hpast haddr
    refine ⟨step_of_codeHits fun hnone => ?_, hbit⟩
    simp [hnone] at hbit
  intro i t hc hf hx hits
  refine ⟨fun n => getLsbD_dataHits, fun hhit htf => ?_, fun htf => ?_, fun hnone htf => ?_⟩
  · have htrap := step_of_trap hc hf hx
    rw [stepBit_of_not_flagTF htf, BitVec.or_zero, BitVec.or_zero] at htrap
    exact htrap hhit
  · have htrap := step_of_trap hc hf hx
    rw [stepBit_of_flagTF htf] at htrap
    exact htrap (or_stepBit_ne_zero _)
  · refine step_of_no_trap hc hf hx ?_
    rw [stepBit_of_not_flagTF htf, BitVec.or_zero]
    exact hnone

end Sys2Proof.Machine
end

section
/-! PROOFS. Code that stands at the instruction pointer: placed there at launch it gives the premises of R162 (O59), and a
program of it runs to the byte after its last (O60). -/

namespace Sys2Proof.Machine

/-! ## Code at the instruction pointer -/

/-- The bytes `bs` lie at the instruction pointer and can be fetched. -/
def CodeAt (s : State) (bs : List Byte) : Prop :=
  ∀ (n : Nat) (h : n < bs.length), fetchStop s n = none ∧ fetchByte s n = bs[n]

/-- The fetch of a byte goes on where it is in bounds and translates to ordinary memory (R36, R41, R123). -/
theorem fetchStop_eq_none_iff {s : State} {k : Nat} : fetchStop s k = none ↔ codeInBounds s k = true ∧
    ∃ pa, s.translate .fetch s.cpl (codeAddress s k) = .physical pa ∧ regionKind s.cfg.addressMap pa.toNat = .ordinary := by
  by_cases hin : codeInBounds s k = true
  · cases htranslate : s.translate .fetch s.cpl (codeAddress s k) with
    | fault e a => simp [fetchStop, hin, htranslate]
    | physical pa => cases hkind : regionKind s.cfg.addressMap pa.toNat <;> simp [fetchStop, hin, htranslate, hkind]
  · simp [fetchStop, hin]

/-- Where a form lies the fetch reads it, whatever bytes come after (R67). -/
theorem fetch_of_codeAt {s : State} {i : Instr} {bs : List Byte} (hwf : i.wf s.decodeMode s.cfg.b1RegNon512 = true)
    (h : CodeAt s (encode i ++ bs)) : fetch s = .instr i := by
  obtain ⟨rest, hwindow⟩ := fetchWindow_starts_with (encode i) maxLength 0 (length_encode_le hwf) fun j hj => by
    rw [Nat.zero_add]
    obtain ⟨hstop, hbyte⟩ := h j (by rw [List.length_append]; omega)
    exact ⟨hstop, by rw [hbyte, List.getElem_append_left hj]⟩
  exact fetch_of_decode (hwindow ▸ decode_encode hwf rest)

/-- With nothing armed, a fetched form that completes is the step (R12, R157). -/
theorem step_of_fetch_next {s t : State} {i : Instr} (hq : s.debugQuiet = true) (hf : fetch s = .instr i)
    (hx : exec i s = .next t) : step s = .next t := by
  rw [step, stepInstr_instr (codeHits_of_debugQuiet hq) hf, debugTrap_of_debugQuiet hq, hx]
  rfl

/-! ## Placing code -/

theorem codeAddress_of_is64 {s : State} (h64 : s.is64 = true) (k : Nat) :
    codeAddress s k = s.rip + BitVec.ofNat 64 k := by
  simp [codeAddress, h64]

/-- In 64-bit mode no two bytes of an instruction share an address (R36). -/
theorem codeAddress_injective {s : State} (h64 : s.is64 = true) {j k : Nat} (hj : j < 2 ^ 64) (hk : k < 2 ^ 64)
    (h : (codeAddress s j).toNat = (codeAddress s k).toNat) : j = k := by
  have hsum := BitVec.eq_of_toNat_eq h
  rw [codeAddress_of_is64 h64, codeAddress_of_is64 h64, BitVec.add_right_inj] at hsum
  have hnat := congrArg BitVec.toNat hsum
  rwa [BitVec.toNat_ofNat, BitVec.toNat_ofNat, Nat.mod_eq_of_lt hj, Nat.mod_eq_of_lt hk] at hnat

theorem storeCode_cons_of_identity {s : State}
    (hid : s.cfg.translation = { rows := [], pages := [], unlisted := .identity }) (k : Nat) (b : Byte) (bs : List Byte) :
    storeCode s k (b :: bs) = storeCode { s with mem := memWrite s.mem (codeAddress s k).toNat b } (k + 1) bs := by
  rw [storeCode, translate_identity hid]

/-- Placing code leaves every other byte alone. -/
theorem memRead_storeCode_other {s : State}
    (hid : s.cfg.translation = { rows := [], pages := [], unlisted := .identity }) {k a : Nat} {bs : List Byte}
    (ha : ∀ j < bs.length, a ≠ (codeAddress s (k + j)).toNat) :
    memRead (storeCode s k bs).mem a = memRead s.mem a := by
  induction bs generalizing s k with
  | nil => rfl
  | cons b bs ih =>
    rw [storeCode_cons_of_identity hid]
    refine (ih (s := { s with mem := memWrite s.mem (codeAddress s k).toNat b }) hid fun j hj => ?_).trans
      (memRead_memWrite_other s.mem b (ha 0 (Nat.zero_lt_succ _)))
    rw [Nat.add_right_comm]
    exact ha (j + 1) (Nat.succ_lt_succ hj)

/-- Code that is placed is read back. -/
theorem memRead_storeCode {s : State} (h64 : s.is64 = true)
    (hid : s.cfg.translation = { rows := [], pages := [], unlisted := .identity }) (hwf : Memory.wf s.mem = true)
    {k : Nat} {bs : List Byte} (hlen : k + bs.length ≤ 2 ^ 64) {j : Nat} (hj : j < bs.length) :
    memRead (storeCode s k bs).mem (codeAddress s (k + j)).toNat = bs[j] := by
  induction bs generalizing s k j with
  | nil => cases hj
  | cons b bs ih =>
    rw [List.length_cons] at hlen hj
    rw [storeCode_cons_of_identity hid]
    cases j with
    | zero =>
      refine (memRead_storeCode_other (s := { s with mem := memWrite s.mem (codeAddress s k).toNat b }) hid
        fun j hj heq => ?_).trans (memRead_memWrite_same hwf _ b)
      have := codeAddress_injective h64 (by omega) (by omega) heq
      omega
    | succ j =>
      rw [← Nat.add_assoc, Nat.add_right_comm]
      exact ih (s := { s with mem := memWrite s.mem (codeAddress s k).toNat b }) h64 hid
        (memWrite_wf hwf b (codeAddress s k).isLt) (by omega) (Nat.lt_of_succ_lt_succ hj)

theorem fetchStop_with_mem {s : State} {k : Nat} (m : List Host.Cell) (h : fetchStop s k = none) :
    fetchStop { s with mem := m } k = none := by
  have hgoes := fetchStop_eq_none_iff.mp h
  exact fetchStop_eq_none_iff.mpr hgoes

theorem fetchByte_with_mem {s : State}
    (hid : s.cfg.translation = { rows := [], pages := [], unlisted := .identity }) (m : List Host.Cell) (k : Nat) :
    fetchByte { s with mem := m } k = memRead m (codeAddress s k).toNat := by
  rw [fetchByte, State.readLinear, translate_identity (s := { s with mem := m }) hid]
  rfl

/-- Code placed where it can be fetched lies there. -/
theorem codeAt_storeCode {s : State} (h64 : s.is64 = true)
    (hid : s.cfg.translation = { rows := [], pages := [], unlisted := .identity }) (hwf : Memory.wf s.mem = true)
    {bs : List Byte} (hstop : ∀ n < bs.length, fetchStop s n = none) : CodeAt (storeCode s 0 bs) bs := by
  intro n hn
  have hlast := lt_of_fetchable (hstop (bs.length - 1) (by omega))
  have hread := memRead_storeCode h64 hid hwf (k := 0) (bs := bs) (by omega) hn
  rw [Nat.zero_add] at hread
  rw [(storeCode_cases s 0 bs).1]
  exact ⟨fetchStop_with_mem _ (hstop n hn), (fetchByte_with_mem hid _ n).trans hread⟩

/-! ## Launch (R161, R162) -/

theorem or_extractLsb'_of_ones {w len start : Nat} {m : BitVec w} (x : BitVec w)
    (h : m.extractLsb' start len = BitVec.allOnes len) : (x ||| m).extractLsb' start len = BitVec.allOnes len := by
  rw [BitVec.extractLsb'_or, h, BitVec.or_allOnes]

@[simp] theorem State.launched_cr0PE (s : State) : s.launched.cr0PE = true := by
  simp [State.launched, State.enabled, State.cr0PE]

@[simp] theorem State.launched_cr0TS (s : State) : s.launched.cr0TS = false := by
  simp [State.launched, State.enabled, State.cr0TS]

@[simp] theorem State.launched_flagVM (s : State) : s.launched.flagVM = false := by
  simp [State.launched, State.enabled, State.flagVM]

@[simp] theorem State.launched_flagTF (s : State) : s.launched.flagTF = false := by
  simp [State.launched, State.enabled, State.flagTF]

@[simp] theorem State.launched_cr4OSXSAVE (s : State) : s.launched.cr4OSXSAVE = true := by
  simp [State.launched, State.enabled, State.cr4OSXSAVE]

@[simp] theorem State.launched_xcr0Avx (s : State) : s.launched.xcr0Avx = true :=
  decide_eq_true (or_extractLsb'_of_ones s.xcr0 (m := 0xE7#64) (by decide))

@[simp] theorem State.launched_xcr0Avx512 (s : State) : s.launched.xcr0Avx512 = true :=
  decide_eq_true (or_extractLsb'_of_ones s.xcr0 (m := 0xE7#64) (by decide))

@[simp] theorem State.launched_legacyMode (s : State) : s.launched.legacyMode = false := by
  simp [State.legacyMode]

@[simp] theorem State.launched_is64 (s : State) : s.launched.is64 = true := by
  simp [is64_iff]

@[simp] theorem State.launched_decodeMode (s : State) : s.launched.decodeMode = .mode64 :=
  of_decide_eq_true s.launched_is64

@[simp] theorem State.launched_debugQuiet (s : State) : s.launched.debugQuiet = true := by
  have hunarmed : s.launched.dr7.extractLsb' 0 8 = 0#8 := by
    change (s.dr7 &&& ~~~0xFF#64).extractLsb' 0 8 = 0#8
    rw [BitVec.extractLsb'_and, show (~~~0xFF#64).extractLsb' 0 8 = 0#8 by decide, BitVec.and_zero]
  simp [State.debugQuiet, hunarmed]

/-- The mask of a well-formed form does not ask for zeroing under no mask (R142). -/
theorem mask_wf_of_wf {m : DecodeMode} {p : B1RegNon512} {i : Instr} (h : i.wf m p = true) :
    i.formOp.mask.all MaskSpec.wf = true := by
  obtain ⟨f, l, x, d, v, r, rfl⟩ | ⟨f, vl, x, k, d, v, r, rfl⟩ := i.vex_or_evex
  · rw [formOp_vexInstr]
    rfl
  · rw [wf_evexInstr, wfEvex_eq] at h
    simp only [Bool.and_eq_true] at h
    obtain ⟨⟨⟨-, hmask⟩, -⟩, -⟩ := h
    rw [formOp_evexInstr]
    exact hmask

theorem formEnabled_launched {s : State} {m : DecodeMode} {p : B1RegNon512} {i : Instr} (hwf : i.wf m p = true)
    (hcpuid : cpuidOk s.cfg i.formOp = true) : formEnabled s.launched i.formOp = true := by
  simp [formEnabled, hcpuid, mask_wf_of_wf hwf]

theorem extractLsb'_ofNat_of_low {n start : Nat} (w len : Nat) (hn : n < 2 ^ start) :
    (BitVec.ofNat w n).extractLsb' start len = 0#len := by
  apply BitVec.eq_of_toNat_eq
  rw [BitVec.extractLsb'_toNat, BitVec.toNat_ofNat, Nat.shiftRight_eq_div_pow,
    Nat.div_eq_of_lt ((Nat.mod_le ..).trans_lt hn)]
  rfl

theorem canonical_of_low (s : State) {n : Nat} (hn : n < 2 ^ 47) : s.canonical (BitVec.ofNat 64 n) = true := by
  have h56 : n < 2 ^ 56 := by omega
  simp [State.canonical, extractLsb'_ofNat_of_low 64 17 hn, extractLsb'_ofNat_of_low 64 8 h56]

/-- Launched, an instruction of any length is in bounds (R123, R162): `pc` is 0 where it would not have been. -/
theorem codeInBounds_launched (s : State) {n : Nat} (hn : n < maxLength) : codeInBounds s.launched n = true := by
  by_cases hall : (List.range maxLength).all (codeInBounds s.enabled) = true
  · have hlaunched : s.launched = s.enabled := by
      rw [State.launched, if_pos hall]
      rfl
    rw [hlaunched]
    exact List.all_eq_true.mp hall n (List.mem_range.mpr hn)
  · have hrip : s.launched.rip = 0 := if_neg hall
    have hsmall : n < 15 := hn
    rw [codeInBounds_of_is64 s.launched_is64, pc_of_not_past s.launched_ripPast, hrip]
    refine ⟨by simp; omega, ?_⟩
    rw [BitVec.ofNat_eq_ofNat, BitVec.zero_add]
    exact canonical_of_low _ (by omega)

theorem canonical_launched (s : State) : s.launched.canonical s.launched.rip = true := by
  have hfirst := ((codeInBounds_of_is64 s.launched_is64 0).mp (codeInBounds_launched s (by decide))).2
  rwa [BitVec.add_zero] at hfirst

/-- A launched state with a form in memory at the instruction pointer meets the premises of R162 for it. -/
theorem launchPremises_of_codeAt {s : State} {i : Instr} (m : List Host.Cell)
    (hwf : i.wf .mode64 s.cfg.b1RegNon512 = true) (hcpuid : cpuidOk s.cfg i.formOp = true)
    (hmxcsr : s.mxcsr.extractLsb' 16 16 = 0#16) (hcode : CodeAt { s.launched with mem := m } (encode i)) :
    LaunchPremises { s.launched with mem := m } i where
  mode := s.launched_legacyMode
  enables := formEnabled_launched hwf hcpuid
  taskSwitched := s.launched_cr0TS
  mxcsr := hmxcsr
  canonical _ := ⟨rfl, canonical_launched s⟩
  instruction := by
    refine fetch_of_codeAt (bs := []) ?_ (by rwa [List.append_nil])
    rw [show State.decodeMode { s.launched with mem := m } = .mode64 from s.launched_decodeMode]
    exact hwf
  fetchable n hn := (hcode n (by rwa [length_encode])).1
  debug := s.launched_debugQuiet

/-- Settles O59: the bytes of the form, placed at launch, can be fetched and are read back; and with nothing armed the step
of a fetched form that completes is its next state. -/
theorem launchedFormRuns : Obligations.LaunchedFormRuns := by
  refine ⟨fun s i hwf hcpuid hmxcsr hmem hid hordinary => ?_, fun s i hpremises hcompletes => ?_⟩
  · have hstop : ∀ n < (encode i).length, fetchStop s.launched n = none := fun n hn => by
      have hshort : n < maxLength := hn.trans_le (length_encode_le hwf)
      exact fetchStop_eq_none_iff.mpr
        ⟨codeInBounds_launched s hshort, _, translate_identity (s := s.launched) hid .., hordinary n hshort⟩
    have hcode := codeAt_storeCode s.launched_is64 hid hmem hstop
    rw [(storeCode_cases s.launched 0 (encode i)).1] at hcode ⊢
    exact launchPremises_of_codeAt _ hwf hcpuid hmxcsr hcode
  · have hexec := (exec_eq_execForm i s).trans (execForm_next_iff.mpr ⟨hcompletes, rfl⟩)
    exact ⟨_, hexec, step_of_fetch_next hpremises.debug hpremises.instruction hexec⟩

/-! ## From one form of a program to the next -/

/-- In 64-bit mode nothing is fetched past the top of the address space (R123 (b)). -/
theorem ripPast_of_fetch {s : State} {i : Instr} (h64 : s.is64 = true) (hf : fetch s = .instr i) : s.ripPast = false := by
  by_contra hpast
  have htop := pc_add_len_le h64 hf
  have hpos := formOp_len_pos i.formOp
  rw [State.pc, if_pos (by simpa using hpast)] at htop
  omega

section
variable {s t : State} {i : Instr} (hx : exec i s = .next t)
include hx

theorem is64_of_exec_next : t.is64 = s.is64 := by
  rw [exec_next_frame hx]
  rfl

theorem decodeMode_of_exec_next : t.decodeMode = s.decodeMode := by
  rw [exec_next_frame hx]
  rfl

theorem cfg_of_exec_next : t.cfg = s.cfg := by
  rw [exec_next_frame hx]

theorem debugQuiet_of_exec_next : t.debugQuiet = s.debugQuiet := by
  rw [exec_next_frame hx]
  rfl

/-- In 64-bit mode a completed form that was fetched leaves `pc` at the byte after it (R22, R123 (b)). -/
theorem pc_of_exec_next (h64 : s.is64 = true) (hf : fetch s = .instr i) : t.pc = s.pc + i.formOp.len := by
  obtain ⟨-, rfl⟩ := exec_next hx
  exact pc_of_pcAdvances ⟨rfl, rfl⟩ h64 (ripPast_of_fetch h64 hf) (pc_add_len_le h64 hf)

theorem codeAddress_of_exec_next (h64 : s.is64 = true) (n : Nat) : codeAddress t n = codeAddress s (i.formOp.len + n) := by
  have hrip : t.rip = s.rip + BitVec.ofNat 64 i.formOp.len := by
    obtain ⟨-, rfl⟩ := exec_next hx
    exact if_pos h64
  rw [codeAddress_of_is64 ((is64_of_exec_next hx).trans h64), codeAddress_of_is64 h64, hrip, BitVec.ofNat_add,
    BitVec.add_assoc]

/-- The bytes after a completed form lie at the instruction pointer it leaves. -/
theorem codeAt_of_exec_next {bs : List Byte} (h64 : s.is64 = true) (hf : fetch s = .instr i)
    (hcode : CodeAt s (encode i ++ bs)) : CodeAt t bs := by
  intro n hn
  obtain ⟨hstop, hbyte⟩ := hcode (i.formOp.len + n) (by rw [List.length_append, length_encode]; omega)
  have haddr := codeAddress_of_exec_next hx h64 n
  have hframe := exec_next_frame hx
  have htranslate : t.translate .fetch t.cpl (codeAddress t n) =
      s.translate .fetch s.cpl (codeAddress s (i.formOp.len + n)) := by
    rw [haddr, hframe]
    rfl
  constructor
  · obtain ⟨hin, hpa⟩ := fetchStop_eq_none_iff.mp hstop
    refine fetchStop_eq_none_iff.mpr ⟨?_, by rwa [htranslate, cfg_of_exec_next hx]⟩
    rw [codeInBounds, if_pos h64, Bool.and_eq_true, decide_eq_true_eq] at hin
    rw [codeInBounds, if_pos ((is64_of_exec_next hx).trans h64), Bool.and_eq_true, decide_eq_true_eq,
      pc_of_exec_next hx h64 hf, Nat.add_assoc, haddr, hframe]
    exact hin
  · have hlast : bs[n] = (encode i ++ bs)[i.formOp.len + n]'(by rw [List.length_append, length_encode]; omega) := by
      simp [List.getElem_append_right, length_encode]
    have hmem : t.mem = s.mem := by rw [hframe]
    rw [hlast, ← hbyte, fetchByte, fetchByte, State.readLinear, State.readLinear, htranslate, hmem]

end

/-! ## The run of a program (R168) -/

theorem programEnd_of_is64 {s : State} (h64 : s.is64 = true) (p : List Instr) :
    s.programEnd p = s.pc + (programBytes p).length := if_pos h64

theorem execAll_cons_next {i : Instr} {p : List Instr} {s t : State} (h : execAll (i :: p) s = .next t) :
    ∃ u, exec i s = .next u ∧ execAll p u = .next t := by
  rw [execAll] at h
  split at h
  case h_1 u hu => exact ⟨u, hu, h⟩
  all_goals cases h

/-- A program that lies at the instruction pointer and whose forms all complete runs to its end (R168 (c)). -/
theorem runProgram_of_execAll {p : List Instr} {s t : State} (h64 : s.is64 = true) (hq : s.debugQuiet = true)
    (hwf : ∀ i ∈ p, i.wf s.decodeMode s.cfg.b1RegNon512 = true) (hcode : CodeAt s (programBytes p))
    (h : execAll p s = .next t) : runProgram p p.length s = .finished t := by
  induction p generalizing s with
  | nil =>
    cases h
    exact run_at_stop (programEnd_of_is64 h64 []).symm
  | cons i p ih =>
    obtain ⟨u, hexec, hrest⟩ := execAll_cons_next h
    have hfetch := fetch_of_codeAt (hwf i List.mem_cons_self) hcode
    have hu64 := (is64_of_exec_next hexec).trans h64
    have hend : s.programEnd (i :: p) = u.programEnd p := by
      rw [programEnd_of_is64 h64, programEnd_of_is64 hu64, pc_of_exec_next hexec h64 hfetch, programBytes_cons,
        List.length_append, length_encode, Nat.add_assoc]
    have hbefore : s.pc ≠ s.programEnd (i :: p) := by
      have hpos := formOp_len_pos i.formOp
      rw [programEnd_of_is64 h64, programBytes_cons, List.length_append, length_encode]
      omega
    calc runProgram (i :: p) (i :: p).length s
        = run (s.programEnd (i :: p)) p.length u := run_succ_of_next hbefore (step_of_fetch_next hq hfetch hexec)
      _ = runProgram p p.length u := by rw [hend, runProgram]
      _ = .finished t := ih hu64 ((debugQuiet_of_exec_next hexec).trans hq)
          (fun j hj => by
            rw [decodeMode_of_exec_next hexec, cfg_of_exec_next hexec]
            exact hwf j (List.mem_cons_of_mem i hj))
          (codeAt_of_exec_next hexec h64 hfetch hcode) hrest

/-- A run is over nowhere but at `stop`. -/
theorem pc_of_run_finished {stop n : Nat} {s t : State} (h : run stop n s = .finished t) : t.pc = stop := by
  induction n generalizing s with
  | zero =>
    by_cases hpc : s.pc = stop
    · cases (run_at_stop hpc).symm.trans h
      exact hpc
    · simp [run, hpc] at h
  | succ n ih =>
    by_cases hpc : s.pc = stop
    · cases (run_at_stop hpc).symm.trans h
      exact hpc
    · rw [run, if_neg hpc] at h
      split at h
      case h_1 => exact ih h
      all_goals cases h

/-- Settles O60: each form of the program is one step of the run, which stops nowhere but at the end. -/
theorem programRunEnds : Obligations.ProgramRunEnds :=
  ⟨fun _ _ _ h64 hq hwf hcode h => runProgram_of_execAll h64 hq hwf hcode h, fun _ _ _ _ h => pc_of_run_finished h⟩

end Sys2Proof.Machine
end
